-- ==== Sys2Proof/Word.lean ====
section
/-! DEFINITION. The byte of a frame. Everything else the part computes with is an integer in a stated unit
(spec/00_scope.md 4.1), so that only bytes and identifiers are bit vectors. -/

namespace Sys2Proof

/-- One byte of a CAN FD frame's data (spec/11 section 11.6). -/
abbrev Byte := BitVec 8

/-- A node number, 0 to 255 (R179). -/
abbrev Node := BitVec 8

end Sys2Proof
end

