-- ==== Sys2Proof/Syntax.lean ====
section
/-! DEFINITION. The commands: one constructor of `Instr` per row of spec/opcode_table.json, and the frames and
record contents that a command can carry. Quantities are integers in the units of spec/00_scope.md 4.1. -/

namespace Sys2Proof

/-- The three links, and with them their ports (spec/00_scope.md 1.2). -/
inductive Link
  | ml | cl | sl
  deriving DecidableEq, Repr

/-- One value per actuator or per accumulator, in the order of spec/00_scope.md 4.2 or spec/07 section 7.1. -/
structure Six (α : Type) where
  p0 : α
  p1 : α
  p2 : α
  p3 : α
  p4 : α
  p5 : α
  deriving DecidableEq, Repr

/-- One value per ladder source, per ladder level, or per payload point, in their tables' order. -/
structure Eight (α : Type) where
  p0 : α
  p1 : α
  p2 : α
  p3 : α
  p4 : α
  p5 : α
  p6 : α
  p7 : α
  deriving DecidableEq, Repr

/-- The six actuators, in actuator order (spec/00_scope.md 4.2). -/
inductive Actuator
  | boomUp | boomDown | armIn | armOut | slewCcw | slewCw
  deriving DecidableEq, Repr

/-- The six duty accumulators, in accumulator order (spec/07 section 7.1). -/
inductive Accum
  | engineTime | loadTime | fuel | slew | cycles | tonnes
  deriving DecidableEq, Repr

/-- The eight demand sources, in the order of the source table (spec/06 section 6.1). -/
inductive Source
  | test | digBoost | regen | touchIdle | autoIdle | travel | mode | spare
  deriving DecidableEq, Repr

/-- Rounding modes of the solver control (R28). -/
inductive Rounding
  | nearest | towardZero | up | down
  deriving DecidableEq, Repr

/-- Zone kinds (spec/03 section 3.1). -/
inductive ZoneKind
  | sectorStop | ceiling | floor | reachWall
  deriving DecidableEq, Repr

/-- Order mode of a ladder level (R104). -/
inductive OrderMode
  | fifo | lifo
  deriving DecidableEq, Repr

/-- Severity of a service item (spec/08 section 8.1). -/
inductive Severity
  | advisory | critical
  deriving DecidableEq, Repr

/-- The seven stamp slots (spec/10 section 10.1). -/
inductive StampKind
  | slewEntry | limitBreach | lateBraking | solveFault | sampleLoss | cycle | storeFault
  deriving DecidableEq, Repr

/-- What SET_MODE names (R119). -/
inductive ModeChoice
  | power | standard | economy | lift | off
  deriving DecidableEq, Repr

/-- PLACE or WITHDRAW (R121, R122). -/
inductive DemandAction
  | place | withdraw
  deriving DecidableEq, Repr

/-- SET or CLEAR of SET_GRADE (R52). -/
inductive GradeAction
  | set | clear
  deriving DecidableEq, Repr

/-- The two sources TEST_DEMAND may name (R122). -/
inductive TestSource
  | test | spare
  deriving DecidableEq, Repr

/-- What ACCUM_SET may name (R136). -/
inductive AccumTarget
  | accum (a : Accum)
  | ratedFuel
  deriving DecidableEq, Repr

/-- An angle's mechanical range, both bounds included (R23). -/
structure AngleRange where
  lo : Int
  hi : Int
  deriving DecidableEq, Repr

/-- The fields of the geometry record (table of spec/02 section 2.5). -/
structure Geometry where
  x0 : Int
  z0 : Int
  lb : Int
  la : Int
  lk : Int
  boomRange : AngleRange
  armRange : AngleRange
  bucketRange : AngleRange
  pitchRange : AngleRange
  rollLimit : Int
  tolerance : Int
  ratedSlew : Int
  alphaEmpty : Int
  alphaLoaded : Int
  slewGuard : Int
  escape : Int
  fallback : Six Int
  deriving DecidableEq, Repr

/-- One mark for each of the five causes that have an enable and a sticky flag (R18). -/
structure CauseMarks where
  range : Bool
  tilt : Bool
  disagree : Bool
  step : Bool
  overflow : Bool
  deriving DecidableEq, Repr

/-- The solver control (table of spec/02 section 2.6). -/
structure SolverControl where
  rounding : Rounding
  enables : CauseMarks
  flush : Bool
  deadBand : Int
  staleLimit : Int
  deriving DecidableEq, Repr

/-- What a zone entry holds while ACTIVE or SUSPENDED, beside its origin (table of spec/03 section 3.1). -/
structure ZoneBody where
  kind : ZoneKind
  start : Int
  stop : Int
  full : Bool
  limit : Int
  margin : Int
  deriving DecidableEq, Repr

/-- The fields of a PRESENT grade plane (table of spec/03 section 3.4). -/
structure PlaneBody where
  elevation : Int
  slope : Int
  tolerance : Int
  hold : Bool
  margin : Int
  deriving DecidableEq, Repr

/-- The aid record (table of spec/05 section 5.1). -/
structure AidRecord where
  digPressure : Int
  omegaStill : Int
  omegaSwing : Int
  curl : Int
  dump : Int
  timeout : Int
  settle : Int
  boostPressure : Int
  headArea : Int
  rodArea : Int
  prescale : Nat
  deriving DecidableEq, Repr

/-- One point of the payload table (spec/05 section 5.1). -/
structure PayloadPoint where
  reach : Int
  empty : Int
  gain : Int
  deriving DecidableEq, Repr

/-- The ladder configuration (table of R123). -/
structure LadderConfig where
  levels : Eight Nat
  orders : Eight OrderMode
  power : Int
  standard : Int
  economy : Int
  lift : Int
  idle : Int
  travel : Int
  boost : Int
  boostTime : Int
  deriving DecidableEq, Repr

/-- SET_LADDER as received: the configuration with its order mode codes, absent where a code is neither FIFO nor
LIFO (R123). -/
structure LadderRequest where
  levels : Eight Nat
  orders : Eight (Option OrderMode)
  power : Int
  standard : Int
  economy : Int
  lift : Int
  idle : Int
  travel : Int
  boost : Int
  boostTime : Int
  deriving DecidableEq, Repr

/-- The economy configuration (table of R124). -/
structure Economy where
  fleetCap : Int
  idleDelay : Int
  shutdownDelay : Int
  t1 : Int
  c1 : Int
  t2 : Int
  c2 : Int
  warmThreshold : Int
  warmFloor : Int
  derate : Int
  deriving DecidableEq, Repr

/-- Own and partner node of one port (R179). -/
structure NodePair where
  own : Node
  partner : Node
  deriving DecidableEq, Repr

/-- The NODES record (spec/11 section 11.4). -/
structure NodesRecord where
  ml : NodePair
  cl : NodePair
  sl : NodePair
  deriving DecidableEq, Repr

/-- The identifier of a frame on the bus: 11 bits, or 29 bits (R179). -/
inductive Ident
  | standard (i : BitVec 11)
  | extended (i : BitVec 29)
  deriving DecidableEq, Repr

/-- The data of a received frame. `bytes` is the data byte by byte, which the part reads where spec/11 section 11.6
gives the layout (SAMPLE, ZONE_EDIT). The other constructors hold the fields of the requests whose layout the spec
does not give (log 5). An absent code field is a code that names none of the choices. -/
inductive Payload
  | bytes (b : List Byte)
  | regenDemand (action : Option DemandAction) (rpm : Int) (duration wait : Nat)
  | setMode (mode : Option ModeChoice)
  | touchIdle (on : Option Bool)
  | setGrade (action : Option GradeAction) (plane : PlaneBody)
  | item (number : Nat)
  | ringAdvance (position : Nat)
  | ringClearLost (watermark : Option Nat)
  | stampRead (slot : Option StampKind)
  | geometry (g : Geometry)
  | solver (rounding : Option Rounding) (enables : CauseMarks) (alien flush : Bool) (deadBand staleLimit : Int)
  | clearFlags (named : CauseMarks) (alien : Bool)
  | ladder (c : LadderRequest)
  | testDemand (source : Option TestSource) (action : Option DemandAction) (rpm : Int) (duration wait : Nat)
  | economy (e : Economy)
  | aidThresholds (r : AidRecord)
  | aidTable (t : Eight PayloadPoint)
  | aidOther
  | itemDefine (number : Nat) (basis : Option Accum) (severity : Option Severity)
      (interval warnAhead overdueAfter repeatEvery : Nat)
  | accumSet (target : Option AccumTarget) (value : Nat)
  | outputPeriod (ms : Int)
  | restart (nodes : Option NodesRecord)
  deriving DecidableEq, Repr

/-- A frame on a port's bus. -/
structure RxFrame where
  ident : Ident
  data : Payload
  deriving DecidableEq, Repr

/-- Where the store's writing stands at the moment of a power-on reset that abandons a save (R188; log 10): between two
records, during the writing of the next one, or after its writing and before its read-back. -/
inductive WriteMoment
  | between | during | written
  deriving DecidableEq, Repr

/-- One step while a completion applies the edit queue (R50; log 29): the edit at the head is applied, or a link's port
takes the edit request at the head of its receive queue. -/
inductive EditStep
  | apply
  | take (l : Link)
  deriving DecidableEq, Repr

/-- In what order one completion is taken: whether the ladder takes its hand-off before the accumulators and the schedule
take theirs (R11, R115), whether a period expiry that is due is taken between the evaluator's write of the pending set and
the ladder's (R165; log 11), and the steps in which the edit queue is applied while requests are taken (R50; log 29);
what still waits in the queue after these steps is applied then. -/
structure CompletionOrder where
  ladderFirst : Bool
  expiryBetween : Bool
  edits : List EditStep
  deriving DecidableEq, Repr

/-- The commands: one constructor per row of spec/opcode_table.json, in its order. A request row names the link whose
port takes the frame at the head of its receive queue (R181). -/
inductive Instr
  | powerOnReset (m : WriteMoment)
  | loadRecordExamined
  | loadCompletion
  | frameReceived (l : Link) (f : RxFrame)
  | frameTransmitted (l : Link)
  | busOff (l : Link)
  | busOffRecovery (l : Link)
  | unknownRequest (l : Link)
  | sample (l : Link)
  | stagePose
  | stageEvaluate
  | stageAids
  | solveCompletion (o : CompletionOrder)
  | staleTimerExpiry
  | idleTimerExpiry
  | shutdownTimerExpiry
  | durationExpiry
  | waitLimitExpiry (src : Source)
  | outputPeriodExpiry
  | cabViewExpiry
  | saveTimerExpiry
  | saveRecordReadback (mismatch : Bool)
  | saveCompletion
  | keyOff (l : Link)
  | regenDemandPlace (l : Link)
  | regenDemandWithdraw (l : Link)
  | statusQuery (l : Link)
  | identify (l : Link)
  | setMode (l : Link)
  | setModeOff (l : Link)
  | touchIdleOn (l : Link)
  | touchIdleOff (l : Link)
  | zoneEditWrite (l : Link)
  | zoneEditDelete (l : Link)
  | zoneEditSuspend (l : Link)
  | zoneEditResume (l : Link)
  | setGradeSet (l : Link)
  | setGradeClear (l : Link)
  | ackItem (l : Link)
  | ringRead (l : Link)
  | ringAdvance (l : Link)
  | ringClearLost (l : Link)
  | stampRead (l : Link)
  | setGeometry (l : Link)
  | setSolver (l : Link)
  | readFlags (l : Link)
  | clearFlags (l : Link)
  | setLadder (l : Link)
  | testDemandPlace (l : Link)
  | testDemandWithdraw (l : Link)
  | setEconomy (l : Link)
  | setAidsThresholds (l : Link)
  | setAidsTable (l : Link)
  | itemDefine (l : Link)
  | serviceDone (l : Link)
  | itemRetire (l : Link)
  | accumRead (l : Link)
  | accumSet (l : Link)
  | accumSetRatedFuel (l : Link)
  | setOutputPeriod (l : Link)
  | restart (l : Link)
  deriving DecidableEq, Repr

end Sys2Proof
end

