-- ==== Sys2Proof/Decode.lean ====
section
/-! DEFINITION. The command that a word of the opcode table spells. The table gives no row any bits: the part has no
instruction encoding, and its commands are events and frames (INVENTORY.md, "Host interface"). -/

namespace Sys2Proof

/-- No word spells a command, because spec/opcode_table.json gives no bits (log 1). -/
def decodeTableWord (_ _ : Nat) : Option Instr := none

end Sys2Proof
end

