-- ==== Sys2Proof/Config.lean ====
section
/-! DEFINITION. What the part fixes once for all: its codes, capacities and fixed periods. The spec leaves no
value of any command undefined, so there is no free value here (INVENTORY.md, "What the manual leaves open"). -/

namespace Sys2Proof.Config

/-- Vendor code of IDENTIFY (R185). -/
def vendorCode : Nat := 1187
/-- Part code of IDENTIFY (R185). -/
def partCode : Nat := 2740
/-- Revision of IDENTIFY (R185). -/
def revision : Nat := 3

/-- Frames a receive queue holds at most (R180). -/
def rxCapacity : Nat := 8
/-- Places of a transmit queue (R182). -/
def txCapacity : Nat := 8
/-- Entries the edit queue holds at most (R50). -/
def editCapacity : Nat := 4
/-- Entries the flag wait list holds at most (R19). -/
def flagCapacity : Nat := 4

/-- Numbered zone entries (R41); entry 32 is virtual (R54). -/
def zoneCount : Nat := 32
/-- Service items (spec/08 section 8.1). -/
def itemCount : Nat := 24
/-- Positions of the reminder ring (spec/08 section 8.5). -/
def ringSize : Nat := 32

/-- The cab view period in ms (R169). -/
def cabPeriod : Nat := 100
/-- The save timer's run in ms: 360 s (R187). -/
def savePeriod : Nat := 360000

/-- The greatest value of the placement counter (R103). -/
def counterMax : Nat := 4294967295
/-- The greatest basis value, baseline and next_repeat (R134, R143). -/
def basisMax : Nat := 4294967295

/-- Default own node number on every port (R179). -/
def defaultOwn : Node := 40

end Sys2Proof.Config
end

