-- ==== Sys2Proof/Machine/State.lean ====
section
/-! DEFINITION. The state of the part, block by block (spec/00_scope.md section 2), and the state right after
power-on reset. Plain data throughout. -/

namespace Sys2Proof.Machine

/-! ## Access to the fixed-size groups -/

/-- The value of an actuator's place. -/
def actGet {α : Type} (v : Six α) : Actuator → α
  | .boomUp => v.p0
  | .boomDown => v.p1
  | .armIn => v.p2
  | .armOut => v.p3
  | .slewCcw => v.p4
  | .slewCw => v.p5

/-- The value of an accumulator's place. -/
def accGet {α : Type} (v : Six α) : Accum → α
  | .engineTime => v.p0
  | .loadTime => v.p1
  | .fuel => v.p2
  | .slew => v.p3
  | .cycles => v.p4
  | .tonnes => v.p5

/-- The group with one accumulator's place replaced. -/
def accSet {α : Type} (v : Six α) (a : Accum) (x : α) : Six α :=
  match a with
  | .engineTime => { v with p0 := x }
  | .loadTime => { v with p1 := x }
  | .fuel => { v with p2 := x }
  | .slew => { v with p3 := x }
  | .cycles => { v with p4 := x }
  | .tonnes => { v with p5 := x }

/-- One value per actuator, from a function of the actuator. -/
def sixActs {α : Type} (f : Actuator → α) : Six α :=
  ⟨f .boomUp, f .boomDown, f .armIn, f .armOut, f .slewCcw, f .slewCw⟩

/-- One value per accumulator, from a function of the accumulator. -/
def sixAccums {α : Type} (f : Accum → α) : Six α :=
  ⟨f .engineTime, f .loadTime, f .fuel, f .slew, f .cycles, f .tonnes⟩

/-- The six accumulators in accumulator order. -/
def allAccums : List Accum := [.engineTime, .loadTime, .fuel, .slew, .cycles, .tonnes]

/-- The six actuators in actuator order. -/
def allActuators : List Actuator := [.boomUp, .boomDown, .armIn, .armOut, .slewCcw, .slewCw]

/-- The value at a place 0 to 7; a place above 7 reads the last one. -/
def eightGet {α : Type} (v : Eight α) : Nat → α
  | 0 => v.p0
  | 1 => v.p1
  | 2 => v.p2
  | 3 => v.p3
  | 4 => v.p4
  | 5 => v.p5
  | 6 => v.p6
  | _ => v.p7

/-- The eight values in order. -/
def eightList {α : Type} (v : Eight α) : List α := [v.p0, v.p1, v.p2, v.p3, v.p4, v.p5, v.p6, v.p7]

/-- Each of the eight values changed by `f`. -/
def eightMap {α β : Type} (f : α → β) (v : Eight α) : Eight β :=
  ⟨f v.p0, f v.p1, f v.p2, f v.p3, f v.p4, f v.p5, f v.p6, f v.p7⟩

/-- The value of a ladder source's place, in the order of the source table. -/
def srcGet {α : Type} (v : Eight α) : Source → α
  | .test => v.p0
  | .digBoost => v.p1
  | .regen => v.p2
  | .touchIdle => v.p3
  | .autoIdle => v.p4
  | .travel => v.p5
  | .mode => v.p6
  | .spare => v.p7

/-! ## Small value types -/

/-- Part states (spec/00_scope.md 1.3). -/
inductive PartState
  | loading | waiting | running
  deriving DecidableEq, Repr

/-- Pose qualities (R17, R22). -/
inductive Quality
  | good | degraded | withheld | lost
  deriving DecidableEq, Repr

/-- Grade cues (R83). -/
inductive Cue
  | above | on | below | none
  deriving DecidableEq, Repr

/-- Cycle phases (spec/05 section 5.4). -/
inductive Phase
  | idle | dig | swingLoaded | dump | swingEmpty
  deriving DecidableEq, Repr

/-- Origin of a zone or of the grade plane (spec/03 section 3.2). -/
inductive Origin
  | site | operator
  deriving DecidableEq, Repr

/-- Slew directions (R75). -/
inductive Direction
  | ccw | cw
  deriving DecidableEq, Repr

/-- A cause set: the five marks with an enable, and GEOMETRY (spec/01 section 1.4). -/
structure CauseSet where
  marks : CauseMarks
  geometry : Bool
  deriving DecidableEq, Repr

/-- No mark set. -/
def noMarks : CauseMarks := ⟨false, false, false, false, false⟩

/-- The empty cause set. -/
def noCauses : CauseSet := ⟨noMarks, false⟩

/-- A point of the front: reach and height in mm. -/
structure Point where
  r : Int
  z : Int
  deriving DecidableEq, Repr

/-- The three points P1, P2, P3. -/
structure Points where
  p1 : Point
  p2 : Point
  p3 : Point
  deriving DecidableEq, Repr

/-! ## Samples -/

/-- The channel-validity mask: one mark per measured channel (spec/01 section 1.1). -/
structure Validity where
  boomPrimary : Bool
  boomSecondary : Bool
  arm : Bool
  bucket : Bool
  slew : Bool
  pitch : Bool
  roll : Bool
  boomHead : Bool
  boomRod : Bool
  armHead : Bool
  engine : Bool
  fuel : Bool
  coolant : Bool
  oil : Bool
  deriving DecidableEq, Repr

/-- The contents of a SAMPLE as the intake and the solver use them (spec/01 section 1.1, R181). -/
structure Sample where
  seq : Nat
  lever : Bool
  travel : Bool
  operator : Bool
  timestamp : Nat
  valid : Validity
  boomPrimary : Int
  boomSecondary : Int
  arm : Int
  bucket : Int
  slew : Int
  pitch : Int
  roll : Int
  boomHead : Int
  boomRod : Int
  armHead : Int
  engine : Int
  fuel : Int
  coolant : Int
  oil : Int
  deriving DecidableEq, Repr

/-- The last solved sample (R13). -/
structure LastSolved where
  seq : Nat
  timestamp : Nat
  psi : Int
  omega : Int
  deriving DecidableEq, Repr

/-- Intake states (spec/01 section 1.2). -/
inductive IntakeState
  | empty | fresh | stale
  deriving DecidableEq, Repr

/-- A running stale timer: the limit it started with and the ms that remain (R5). -/
structure StaleTimer where
  limit : Nat
  remaining : Nat
  deriving DecidableEq, Repr

/-- The sample intake (table of spec/01 section 1.2). -/
structure Intake where
  state : IntakeState
  lastTaken : Option Nat
  slot : Option Sample
  stale : Option StaleTimer
  restartMark : Bool
  lastSolved : Option LastSolved
  deriving DecidableEq, Repr

/-! ## Geometry and solver records -/

/-- The geometry record with its status (spec/02 section 2.5). -/
inductive GeometryRecord
  | absent
  | faulted
  | present (g : Geometry)
  deriving DecidableEq, Repr

/-- The last good values of the five chain channels (R16). -/
structure LastGood where
  boom : Int
  arm : Int
  bucket : Int
  pitch : Int
  slew : Int
  deriving DecidableEq, Repr

/-- The pose record (table of spec/01 section 1.5). -/
structure PoseRecord where
  seq : Option Nat
  timestamp : Option Nat
  points : Option Points
  psi : Option Int
  omega : Option Int
  quality : Quality
  causes : CauseSet
  offset : Option Int
  cue : Cue
  deriving DecidableEq, Repr

/-- What a solve latches as it begins (R8). -/
structure Latch where
  sample : Sample
  control : SolverControl
  geometry : GeometryRecord
  phase : Phase
  restart : Bool
  last : Option LastSolved
  deriving DecidableEq, Repr

/-- The results of stage POSE, held inside the solve (R9): the published points (none when GEOMETRY was raised, R30),
the slew angle and speed, the settled bucket angle, the causes, the quality, the capped interval, the signed slew
change (none in a restart solve, R31). -/
structure PoseResult where
  points : Option Points
  psi : Int
  omega : Int
  bucket : Int
  causes : CauseSet
  quality : Quality
  interval : Nat
  slewChange : Option Int
  deriving DecidableEq, Repr

/-! ## Stamp records -/

/-- Record of the SLEW_ENTRY slot (R73). -/
structure SlewEntryStamp where
  entry : Nat
  psi : Int
  omega : Int
  seq : Nat
  deriving DecidableEq, Repr

/-- Record of the LIMIT_BREACH slot (R74). -/
structure LimitBreachStamp where
  entry : Nat
  kind : ZoneKind
  distance : Int
  psi : Int
  seq : Nat
  deriving DecidableEq, Repr

/-- Record of the LATE_BRAKING slot (R75). -/
structure LateBrakingStamp where
  entry : Nat
  direction : Direction
  omega : Int
  omegaMax : Int
  distance : Int
  seq : Nat
  deriving DecidableEq, Repr

/-- Record of the SOLVE_FAULT slot (R17). -/
structure SolveFaultStamp where
  seq : Nat
  causes : CauseSet
  deriving DecidableEq, Repr

/-- Record of the SAMPLE_LOSS slot (R6): the last solved sample's sequence number and timestamp, and the limit of the
expired timer. The first two are absent only where no sample was solved, which no run reaches (log 20). -/
structure SampleLossStamp where
  seq : Option Nat
  timestamp : Option Nat
  limit : Nat
  deriving DecidableEq, Repr

/-- Sequence number and timestamp of the sample that entered DIG (R87). -/
structure CycleStart where
  seq : Nat
  timestamp : Nat
  deriving DecidableEq, Repr

/-- The last cycle record (table of R96). The cycle start is present at every DUMP entry a run reaches (log 20). -/
structure CycleRecord where
  seq : Nat
  start : Option CycleStart
  endTimestamp : Nat
  duration : Nat
  reach : Option Int
  payload : Option Int
  deriving DecidableEq, Repr

/-- Record of the CYCLE slot (R98). -/
structure CycleStamp where
  record : CycleRecord
  prescale : Nat
  reached : Nat
  deriving DecidableEq, Repr

/-- Occasions of STORE_FAULT (R174). -/
inductive FaultOccasion
  | load | readback
  deriving DecidableEq, Repr

/-- A record of the stored image, with its index where its class has several (table of spec/11 section 11.4). -/
inductive RecordId
  | nodes
  | geometry
  | solver
  | zone (i : Nat)
  | grade
  | aid
  | payloadTable
  | ladder
  | economy
  | duty
  | accumulator (a : Accum)
  | item (i : Nat)
  | watermark
  | outputPeriod
  deriving DecidableEq, Repr

/-- Record of the STORE_FAULT slot (R174): the class and index are the record's name. -/
structure StoreFaultStamp where
  occasion : FaultOccasion
  record : RecordId
  deriving DecidableEq, Repr

/-- One stamp slot: HELD with its record or EMPTY, and its two overflow marks (R171). -/
structure Slot (α : Type) where
  held : Option α
  hidden : Bool
  visible : Bool
  deriving DecidableEq, Repr

/-- An EMPTY slot with both marks clear (R172). -/
def emptySlot (α : Type) : Slot α := ⟨none, false, false⟩

/-- The seven stamp slots (spec/10 section 10.1). -/
structure Stamps where
  slewEntry : Slot SlewEntryStamp
  limitBreach : Slot LimitBreachStamp
  lateBraking : Slot LateBrakingStamp
  solveFault : Slot SolveFaultStamp
  sampleLoss : Slot SampleLossStamp
  cycle : Slot CycleStamp
  storeFault : Slot StoreFaultStamp
  deriving DecidableEq, Repr

/-- A record of any kind, as a STAMP_READ answer carries it (R176). -/
inductive StampRecord
  | slewEntry (r : SlewEntryStamp)
  | limitBreach (r : LimitBreachStamp)
  | lateBraking (r : LateBrakingStamp)
  | solveFault (r : SolveFaultStamp)
  | sampleLoss (r : SampleLossStamp)
  | cycle (r : CycleStamp)
  | storeFault (r : StoreFaultStamp)
  deriving DecidableEq, Repr

/-! ## The envelope -/

/-- A zone entry 0 to 31. A FAULTED entry is always of origin SITE and holds nothing else (spec/03 section 3.1). -/
inductive Zone
  | empty
  | active (o : Origin) (b : ZoneBody)
  | suspended (o : Origin) (b : ZoneBody)
  | faulted
  deriving DecidableEq, Repr

/-- The grade plane record (spec/03 section 3.4). A FAULTED plane is always SITE. -/
inductive GradePlane
  | absent
  | present (o : Origin) (p : PlaneBody)
  | faulted
  deriving DecidableEq, Repr

/-- The four actions of ZONE_EDIT with what they carry, after the checks of R43. -/
inductive ZoneAction
  | write (b : ZoneBody)
  | delete
  | suspend
  | resume
  deriving DecidableEq, Repr

/-- SET_GRADE with what it carries, clamped as R52 gives. -/
inductive PlaneAction
  | set (p : PlaneBody)
  | clear
  deriving DecidableEq, Repr

/-- A request that may wait in the edit queue, with its values as clamped (R50). -/
inductive Edit
  | zone (number : Nat) (act : ZoneAction)
  | grade (act : PlaneAction)
  | geometry (g : Geometry)
  deriving DecidableEq, Repr

/-- An entry of the edit queue: the edit, its link of arrival, and whether its answer is still owed: an answer is lost
once the port has gone BUS_OFF since the request was taken (R51, R183, R184; log 22). -/
structure QueuedEdit where
  link : Link
  owed : Bool
  edit : Edit
  deriving DecidableEq, Repr

/-- The envelope table (chapter 3). `floorLimit` is entry 32's limit; the rest of entry 32 follows the plane (R54). -/
structure EnvTable where
  zones : List Zone
  plane : GradePlane
  floorLimit : Option Int
  queue : List QueuedEdit
  deriving DecidableEq, Repr

/-- The record of the evaluator's last evaluation (table of spec/04 section 4.1). -/
structure EvalRecord where
  scales : Six Int
  binding : Six (Option Nat)
  fallback : Bool
  deriving DecidableEq, Repr

/-- The envelope evaluator: its record, and one inside mark and one clear mark per entry 0 to 32. -/
structure Evaluator where
  record : EvalRecord
  inside : List Bool
  clear : List Bool
  deriving DecidableEq, Repr

/-- The results of stage EVALUATE held until completion: the stamp events found, in ascending entry number (R76). -/
structure EvalResult where
  entries : List SlewEntryStamp
  breaches : List LimitBreachStamp
  late : List LateBrakingStamp
  deriving DecidableEq, Repr

/-! ## The aid unit -/

/-- The aid unit's request to the ladder (R88, R89). -/
inductive BoostRequest
  | place | withdraw
  deriving DecidableEq, Repr

/-- The results of stage AIDS held until completion (spec/05): grade offset and cue, the DIG_BOOST request, the payload
of a completed cycle (outer none: no cycle completed), the CYCLE stamp event. -/
structure AidsResult where
  offset : Option Int
  cue : Cue
  boost : Option BoostRequest
  completed : Option (Option Int)
  stamp : Option CycleStamp
  deriving DecidableEq, Repr

/-- The aid unit (tables of spec/05 section 5.1). -/
structure AidUnit where
  phase : Phase
  timeIn : Nat
  start : Option CycleStart
  elapsed : Nat
  loaded : Nat
  forceSum : Int
  reachSum : Int
  averaged : Nat
  pressureInvalid : Bool
  last : Option CycleRecord
  prescaler : Nat
  record : AidRecord
  table : Eight PayloadPoint
  deriving DecidableEq, Repr

/-! ## The solve in flight and the solver -/

/-- The solve state with what the solve in flight holds (R8 to R10, R81). `finished` is stage AIDS ended and the
completion not yet performed; the solve state is then still AIDS. -/
inductive Solve
  | idle
  | pose (l : Latch)
  | evaluate (l : Latch) (p : PoseResult)
  | aids (l : Latch) (p : PoseResult) (e : EvalResult) (r : AidRecord) (t : Eight PayloadPoint)
  | finished (l : Latch) (p : PoseResult) (e : EvalResult) (a : AidsResult)
  deriving DecidableEq, Repr

/-- What a waiting flag request asks (R19, R20). -/
inductive FlagRequest
  | read
  | clear (named : CauseMarks)
  deriving DecidableEq, Repr

/-- An entry of the flag wait list; both requests come from SL. -/
structure WaitingFlag where
  owed : Bool
  request : FlagRequest
  deriving DecidableEq, Repr

/-- The pose solver (spec/01 sections 1.3 to 1.5, spec/02 sections 2.5 and 2.6). -/
structure Solver where
  solve : Solve
  control : SolverControl
  lastCauses : CauseSet
  lastSeq : Option Nat
  sticky : CauseMarks
  waiting : List WaitingFlag
  good : LastGood
  geometry : GeometryRecord
  pose : PoseRecord
  deriving DecidableEq, Repr

/-! ## The demand ladder -/

/-- Origin of a demand (table of R103). -/
inductive DemandOrigin
  | link (l : Link)
  | internal
  deriving DecidableEq, Repr

/-- A demand record (spec/06 section 6.1). `leading` is the model's own mark: R106 last left this record first, so it is
not new to that place (log 19). -/
structure Demand where
  source : Source
  level : Nat
  rpm : Int
  duration : Option Nat
  wait : Option Nat
  expired : Bool
  origin : DemandOrigin
  stamp : Nat
  leading : Bool
  deriving DecidableEq, Repr

/-- Reasons of DEMAND_DROPPED (R110). -/
inductive DropReason
  | expired | waitExpired
  deriving DecidableEq, Repr

/-- A record removed with a reason (spec/06 section 6.4). -/
structure Drop where
  demand : Demand
  reason : DropReason
  deriving DecidableEq, Repr

/-- THERMAL stages (R116). -/
inductive ThermalStage
  | none | stage1 | stage2
  deriving DecidableEq, Repr

/-- The demand ladder (tables of spec/06 section 6.1). The values of the ceilings and of the floor are read from the
economy configuration. -/
structure Ladder where
  records : List Demand
  counter : Nat
  thermal : ThermalStage
  service : Bool
  warmup : Bool
  idleTimer : Option Nat
  shutdownTimer : Option Nat
  advise : Bool
  target : Int
  next : Int
  config : LadderConfig
  economy : Economy
  deriving DecidableEq, Repr

/-! ## Duty accumulators -/

/-- An accumulator's value and LOST mark (spec/07 section 7.1). -/
structure AccumValue where
  value : Nat
  lost : Bool
  deriving DecidableEq, Repr

/-- The accumulator block (spec/07 section 7.1): values, remainders, the duty record and the basis values last handed
on. -/
structure Duty where
  values : Six AccumValue
  engineMs : Nat
  loadMs : Nat
  loadQuarter : Nat
  fuelRest : Nat
  tonnesKg : Nat
  ratedFuel : Nat
  handed : Six Nat
  deriving DecidableEq, Repr

/-! ## Service items and the reminder ring -/

/-- Item states (spec/08 section 8.1). -/
inductive ItemState
  | empty | dormant | warn | due | overdue | retiring | faulted
  deriving DecidableEq, Repr

/-- The fields of an item that its record in the image holds (R152). -/
structure ItemFields where
  basis : Accum
  severity : Severity
  interval : Nat
  warnAhead : Nat
  overdueAfter : Nat
  repeatEvery : Nat
  baseline : Nat
  acknowledged : Bool
  deriving DecidableEq, Repr

/-- A service item (table of spec/08 section 8.1). -/
structure Item where
  state : ItemState
  fields : Option ItemFields
  nextRepeat : Option Nat
  lastNotice : Option Nat
  deriving DecidableEq, Repr

/-- An EMPTY item. -/
def emptyItem : Item := ⟨.empty, none, none, none⟩

/-- Notice kinds (spec/08 section 8.5). -/
inductive NoticeKind
  | rise | repeated | reset | fault
  deriving DecidableEq, Repr

/-- A notice (table of spec/08 section 8.5). -/
structure Notice where
  item : Nat
  kind : NoticeKind
  state : ItemState
  basis : Nat
  severity : Severity
  deriving DecidableEq, Repr

/-- The two readers of the ring (spec/08 section 8.5). -/
inductive Reader
  | cab | service
  deriving DecidableEq, Repr

/-- A reader's cursor and marks (table of spec/08 section 8.5). -/
structure ReaderState where
  get : Nat
  unread : Nat
  lost : Bool
  watermark : Nat
  armed : Bool
  deriving DecidableEq, Repr

/-- The reminder ring. A released position holds no notice. -/
structure Ring where
  slots : List (Option Notice)
  put : Nat
  cab : ReaderState
  service : ReaderState
  deriving DecidableEq, Repr

/-! ## The output set -/

/-- An output set, pending or active (table of spec/09 section 9.1). -/
structure OutputSet where
  seq : Option Nat
  scales : Six Int
  binding : Six (Option Nat)
  fallback : Bool
  quality : Quality
  phase : Phase
  target : Int
  next : Int
  advise : Bool
  deriving DecidableEq, Repr

/-- The output block: both sets, the period and the two timers (spec/09). -/
structure Output where
  pending : OutputSet
  active : OutputSet
  period : Nat
  periodTimer : Option Nat
  cabTimer : Option Nat
  deriving DecidableEq, Repr

/-! ## Frames the part sends -/

/-- Result codes (spec/00_scope.md 4.5). -/
inductive Result
  | ok | notPermitted | badField | isProtected | busy | wrongState | notFound
  deriving DecidableEq, Repr

/-- A demand as an answer shows it: source, level, rpm, duration and wait limit (spec/06 section 6.8). -/
structure DemandEcho where
  source : Source
  level : Nat
  rpm : Int
  duration : Option Nat
  wait : Option Nat
  deriving DecidableEq, Repr

/-- A notice with its position, as a RING_READ answer carries it (R156). -/
structure PlacedNotice where
  position : Nat
  notice : Notice
  deriving DecidableEq, Repr

/-- The values a RESPONSE carries behind its code and result (R184 and the rule of each request). -/
inductive Echo
  | received (d : Payload)
  | nothing
  | keyOff (saving again : Bool)
  | status (part : PartState) (active : OutputSet) (pose : PoseRecord) (period : Nat) (overrun : Bool)
  | identify (vendor part revision : Nat) (state : PartState) (nodes : NodePair) (overrun : Bool)
  | demand (d : Option DemandEcho) (target next : Int)
  | zoneEdit (number : Nat) (act : ZoneAction)
  | zone (number : Nat) (act : ZoneAction) (entry : Zone)
  | gradeEdit (act : PlaneAction)
  | grade (act : PlaneAction) (plane : GradePlane)
  | geometry (g : Geometry)
  | solver (c : SolverControl)
  | flags (sticky : CauseMarks) (causes : CauseSet) (seq : Option Nat)
  | cleared (named sticky : CauseMarks)
  | ladder (c : LadderConfig)
  | economy (e : Economy)
  | aidRecord (r : AidRecord)
  | aidTable (t : Eight PayloadPoint)
  | item (number : Nat) (i : Item)
  | ringRead (unread : Nat) (lost : Bool) (notices : List PlacedNotice)
  | ringAdvance (position passed get unread : Nat)
  | ringLost (lost : Bool) (unread watermark : Nat)
  | stamp (slot : StampKind) (record : Option StampRecord) (visible : Bool)
  | accumRead (presence lost : Six Bool) (ratedFuel : Nat) (values : List Nat)
  | accumSet (target : Accum) (value : Nat) (now : AccumValue)
  | ratedFuel (value : Nat)
  | period (ms : Nat)
  | restart (nodes : Option NodesRecord)
  deriving DecidableEq, Repr

/-- The highest item state of CAB_VIEW, with its severity (R170). -/
structure ItemSummary where
  state : ItemState
  severity : Severity
  deriving DecidableEq, Repr

/-- The contents of CAB_VIEW (table of R170). -/
structure CabView where
  tip : Option Point
  psi : Option Int
  offset : Option Int
  cue : Cue
  phase : Phase
  payload : Option Int
  ccwScale : Int
  ccwBinding : Option Nat
  cwScale : Int
  cwBinding : Option Nat
  target : Int
  quality : Quality
  unread : Nat
  lost : Bool
  summary : Option ItemSummary
  deriving DecidableEq, Repr

/-- The contents of OUTPUT: the active set's fields but for its binding zones (R166). -/
structure OutputMessage where
  seq : Option Nat
  scales : Six Int
  target : Int
  next : Int
  fallback : Bool
  advise : Bool
  quality : Quality
  phase : Phase
  deriving DecidableEq, Repr

/-- The contents of a frame the part sends (spec/11 section 11.2). -/
inductive TxBody
  | response (code : Nat) (result : Result) (echo : Echo)
  | output (m : OutputMessage)
  | cabView (v : CabView)
  | demandDropped (source : Source) (reason : DropReason) (rpm target : Int)
  | ringWatermark (reader : Reader) (unread : Nat) (lost : Bool)
  | retireDone (item : Nat)
  | saveDone (written mismatches : Nat)
  deriving DecidableEq, Repr

/-- A frame in a transmit queue. -/
structure TxFrame where
  ident : BitVec 29
  body : TxBody
  deriving DecidableEq, Repr

/-! ## Ports -/

/-- Port states (R183). -/
inductive PortState
  | active | busOff
  deriving DecidableEq, Repr

/-- A port (table of spec/11 section 11.1). -/
structure Port where
  state : PortState
  nodes : NodePair
  rx : List RxFrame
  tx : List TxFrame
  reserved : Nat
  overrun : Bool
  deriving DecidableEq, Repr

/-- The three ports. -/
structure Ports where
  ml : Port
  cl : Port
  sl : Port
  deriving DecidableEq, Repr

/-! ## The store -/

/-- A record of the image as the load finds it: missing, good with its content, or failing its check (R186; log 9). -/
inductive Stored (α : Type)
  | missing
  | good (a : α)
  | bad
  deriving DecidableEq, Repr

/-- A SITE zone in the image: its body, and whether it was stored ACTIVE (R57). -/
structure StoredZone where
  active : Bool
  body : ZoneBody
  deriving DecidableEq, Repr

/-- Both ring watermarks (spec/11 section 11.4). -/
structure Watermarks where
  cab : Nat
  service : Nat
  deriving DecidableEq, Repr

/-- The nonvolatile image (table of spec/11 section 11.4). -/
structure Image where
  nodes : Stored NodesRecord
  geometry : Stored Geometry
  solver : Stored SolverControl
  zones : List (Stored (Option StoredZone))
  grade : Stored (Option PlaneBody)
  aid : Stored AidRecord
  payloadTable : Stored (Eight PayloadPoint)
  ladder : Stored LadderConfig
  economy : Stored Economy
  duty : Stored Nat
  accumulators : Six (Stored AccumValue)
  items : List (Stored (Option ItemFields))
  watermark : Stored Watermarks
  outputPeriod : Stored Nat
  deriving DecidableEq, Repr

/-- A record of a save's snapshot, with the content to be written (R188). -/
inductive SnapRecord
  | nodes (n : NodesRecord)
  | geometry (g : Geometry)
  | solver (c : SolverControl)
  | zone (i : Nat) (z : Option StoredZone)
  | grade (p : Option PlaneBody)
  | aid (r : AidRecord)
  | payloadTable (t : Eight PayloadPoint)
  | ladder (c : LadderConfig)
  | economy (e : Economy)
  | duty (rate : Nat)
  | accumulator (a : Accum) (v : AccumValue)
  | item (i : Nat) (f : Option ItemFields)
  | watermark (w : Watermarks)
  | outputPeriod (ms : Nat)
  deriving DecidableEq, Repr

/-- A save in flight (R188, R190, R191). -/
structure Save where
  todo : List SnapRecord
  written : Nat
  mismatches : Nat
  owesDone : Bool
  isRestart : Bool
  deriving DecidableEq, Repr

/-- The store (R187 to R191). The save state is SAVING while `save` holds one. -/
structure Store where
  image : Image
  nodes : NodesRecord
  dirty : List RecordId
  save : Option Save
  again : Bool
  keyOff : Bool
  restartPending : Bool
  timer : Option Nat
  deriving DecidableEq, Repr

/-! ## The state of the part -/

/-- The whole part, block by block, with the queue of waiting commands. -/
structure State where
  part : PartState
  examined : Nat
  ports : Ports
  intake : Intake
  solver : Solver
  table : EnvTable
  evaluator : Evaluator
  aid : AidUnit
  ladder : Ladder
  duty : Duty
  items : List Item
  ring : Ring
  output : Output
  stamps : Stamps
  store : Store
  pending : List Instr
  deriving DecidableEq, Repr

/-- Faults. The spec gives every command an effect, so no command stops the part (INVENTORY.md, "Faults"). -/
inductive Fault
  deriving DecidableEq, Repr

/-- Refusals. -/
inductive Refusal
  /-- Raised by `exec`'s arm of a command that has no meaning yet; safe. No arm raises it in this model. -/
  | notModelled (mnemonic : String)
  deriving DecidableEq, Repr

/-! ## Default records -/

/-- Default node numbers (R179). -/
def defaultNodes : NodesRecord :=
  ⟨⟨Config.defaultOwn, 10⟩, ⟨Config.defaultOwn, 20⟩, ⟨Config.defaultOwn, 30⟩⟩

/-- The solver control's defaults (table of spec/02 section 2.6). -/
def defaultControl : SolverControl :=
  { rounding := .nearest, enables := ⟨true, false, false, false, true⟩, flush := false, deadBand := 50, staleLimit := 100 }

/-- A mechanical range that admits every angle: the working default (spec/02 section 2.5). -/
def wideRange : AngleRange := ⟨-32768, 32767⟩

/-- The working defaults of R35. The five lengths have none; they are 0 here and nothing reads them (R30). -/
def workingGeometry : Geometry :=
  { x0 := 0, z0 := 0, lb := 0, la := 0, lk := 0
    boomRange := wideRange, armRange := wideRange, bucketRange := wideRange, pitchRange := wideRange
    rollLimit := 2731, tolerance := 364, ratedSlew := 8738, alphaEmpty := 5461, alphaLoaded := 3641
    slewGuard := 182, escape := 200, fallback := ⟨300, 300, 300, 300, 0, 0⟩ }

/-- The aid record's defaults (table of spec/05 section 5.1). -/
def defaultAid : AidRecord :=
  { digPressure := 18000, omegaStill := 1000, omegaSwing := 3000, curl := 0, dump := -9102, timeout := 30, settle := 3
    boostPressure := 28000, headArea := 98175, rodArea := 53800, prescale := 1 }

/-- The default payload table (spec/05 section 5.1). -/
def defaultTable : Eight PayloadPoint :=
  ⟨⟨2000, 0, 0⟩, ⟨4000, 0, 0⟩, ⟨6000, 0, 0⟩, ⟨8000, 0, 0⟩, ⟨10000, 0, 0⟩, ⟨12000, 0, 0⟩, ⟨14000, 0, 0⟩, ⟨16000, 0, 0⟩⟩

/-- The ladder configuration's defaults (table of R123). -/
def defaultLadder : LadderConfig :=
  { levels := ⟨0, 1, 1, 2, 3, 3, 4, 5⟩
    orders := ⟨.fifo, .fifo, .fifo, .fifo, .fifo, .fifo, .fifo, .fifo⟩
    power := 2000, standard := 1800, economy := 1600, lift := 1400, idle := 800, travel := 1800, boost := 2100
    boostTime := 10 }

/-- The economy configuration's defaults (table of R124). -/
def defaultEconomy : Economy :=
  { fleetCap := 0, idleDelay := 5, shutdownDelay := 600, t1 := 105, c1 := 1600, t2 := 110, c2 := 1200
    warmThreshold := 20, warmFloor := 1100, derate := 1500 }

/-! ## Reset values -/

/-- A port after power-on reset (table of spec/11 section 11.1). -/
def resetPort (n : NodePair) : Port :=
  { state := .active, nodes := n, rx := [], tx := [], reserved := 0, overrun := false }

/-- The intake after a reset (table of spec/01 section 1.2). -/
def resetIntake : Intake :=
  { state := .empty, lastTaken := none, slot := none, stale := none, restartMark := true, lastSolved := none }

/-- The pose record after a reset (spec/01 section 1.5). -/
def resetPose : PoseRecord :=
  { seq := none, timestamp := none, points := none, psi := none, omega := none, quality := .lost, causes := noCauses
    offset := none, cue := .none }

/-- The solver after a reset; its two records take their values at load completion. -/
def resetSolver : Solver :=
  { solve := .idle, control := defaultControl, lastCauses := noCauses, lastSeq := none, sticky := noMarks, waiting := []
    good := ⟨0, 0, 0, 0, 0⟩, geometry := .absent, pose := resetPose }

/-- The envelope table before the image load completes. -/
def resetTable : EnvTable :=
  { zones := List.replicate Config.zoneCount .empty, plane := .absent, floorLimit := none, queue := [] }

/-- One mark per entry 0 to 32, all clear. -/
def clearMarks : List Bool := List.replicate (Config.zoneCount + 1) false

/-- The evaluator's record where no entry constrains anything (R69). -/
def freeRecord : EvalRecord :=
  { scales := ⟨1000, 1000, 1000, 1000, 1000, 1000⟩, binding := ⟨none, none, none, none, none, none⟩, fallback := true }

/-- The evaluator before the image load completes. -/
def resetEvaluator : Evaluator := { record := freeRecord, inside := clearMarks, clear := clearMarks }

/-- The aid unit after a reset (table of spec/05 section 5.1). -/
def resetAid : AidUnit :=
  { phase := .idle, timeIn := 0, start := none, elapsed := 0, loaded := 0, forceSum := 0, reachSum := 0, averaged := 0
    pressureInvalid := false, last := none, prescaler := 0, record := defaultAid, table := defaultTable }

/-- The ladder after a reset (table of spec/06 section 6.1). -/
def resetLadder : Ladder :=
  { records := [], counter := 0, thermal := .none, service := false, warmup := false, idleTimer := none
    shutdownTimer := none, advise := false, target := 800, next := 0, config := defaultLadder, economy := defaultEconomy }

/-- The accumulator block before the image load completes. -/
def resetDuty : Duty :=
  { values := sixAccums fun _ => ⟨0, false⟩, engineMs := 0, loadMs := 0, loadQuarter := 0, fuelRest := 0, tonnesKg := 0
    ratedFuel := 6000, handed := sixAccums fun _ => 0 }

/-- All 24 items EMPTY. -/
def resetItems : List Item := List.replicate Config.itemCount emptyItem

/-- A reader at load completion, with its stored watermark (R153). -/
def resetReader (watermark : Nat) : ReaderState :=
  { get := 0, unread := 0, lost := false, watermark := watermark, armed := true }

/-- The ring at load completion, with the stored watermarks (R153). -/
def resetRing (w : Watermarks) : Ring :=
  { slots := List.replicate Config.ringSize none, put := 0, cab := resetReader w.cab, service := resetReader w.service }

/-- Both output sets before the image load completes. -/
def resetSet : OutputSet :=
  { seq := none, scales := freeRecord.scales, binding := freeRecord.binding, fallback := true, quality := .lost
    phase := .idle, target := 800, next := 0, advise := false }

/-- The output block before the image load completes: no timer runs (R163). -/
def resetOutput : Output :=
  { pending := resetSet, active := resetSet, period := 20, periodTimer := none, cabTimer := none }

/-- Every slot EMPTY, both marks clear (R172). -/
def resetStamps : Stamps :=
  ⟨emptySlot _, emptySlot _, emptySlot _, emptySlot _, emptySlot _, emptySlot _, emptySlot _⟩

/-- An image with every record missing (log 7). -/
def blankImage : Image :=
  { nodes := .missing, geometry := .missing, solver := .missing
    zones := List.replicate Config.zoneCount .missing
    grade := .missing, aid := .missing, payloadTable := .missing, ladder := .missing, economy := .missing
    duty := .missing, accumulators := sixAccums fun _ => .missing
    items := List.replicate Config.itemCount .missing
    watermark := .missing, outputPeriod := .missing }

/-- The store after a reset, over the image it keeps (R187 to R191). -/
def resetStore (image : Image) : Store :=
  { image := image, nodes := defaultNodes, dirty := [], save := none, again := false, keyOff := false
    restartPending := false, timer := none }

/-- The part on entry into LOADING over a given image, with the commands that wait (R186). -/
def loadingState (image : Image) (pending : List Instr) : State :=
  { part := .loading
    examined := 0
    ports := ⟨resetPort defaultNodes.ml, resetPort defaultNodes.cl, resetPort defaultNodes.sl⟩
    intake := resetIntake
    solver := resetSolver
    table := resetTable
    evaluator := resetEvaluator
    aid := resetAid
    ladder := resetLadder
    duty := resetDuty
    items := resetItems
    ring := resetRing ⟨0, 0⟩
    output := resetOutput
    stamps := resetStamps
    store := resetStore image
    pending := pending }

/-- The part right after power-on reset: LOADING, over a blank image (log 7). -/
def State.reset : State := loadingState blankImage []

end Sys2Proof.Machine
end

