-- ==== Sys2Proof/Machine/Flags.lean ====
section
/-! DEFINITION. The marks: cause sets, the quality they decide, the sticky flags, and the marks of a stamp slot. -/

namespace Sys2Proof.Machine

/-! ## Cause sets (spec/01 section 1.4) -/

/-- Some mark is set. -/
def anyMark (m : CauseMarks) : Bool := m.range || m.tilt || m.disagree || m.step || m.overflow

/-- The marks set in both. -/
def bothMarks (a b : CauseMarks) : CauseMarks :=
  ⟨a.range && b.range, a.tilt && b.tilt, a.disagree && b.disagree, a.step && b.step, a.overflow && b.overflow⟩

/-- The marks set in either: sticky flags after a DEGRADED solve (R18). -/
def eitherMarks (a b : CauseMarks) : CauseMarks :=
  ⟨a.range || b.range, a.tilt || b.tilt, a.disagree || b.disagree, a.step || b.step, a.overflow || b.overflow⟩

/-- The marks of `a` that `b` does not name: sticky flags after CLEAR_FLAGS (R20). -/
def clearNamed (a b : CauseMarks) : CauseMarks :=
  ⟨a.range && !b.range, a.tilt && !b.tilt, a.disagree && !b.disagree, a.step && !b.step, a.overflow && !b.overflow⟩

/-- The outcome of a solve from its cause set and the latched enables (R17). -/
def decideQuality (c : CauseSet) (enables : CauseMarks) : Quality :=
  if c.geometry || anyMark (bothMarks c.marks enables) then .withheld
  else if anyMark c.marks then .degraded
  else .good

/-- The pose can be used: quality GOOD or DEGRADED (R10). -/
def usable (q : Quality) : Bool :=
  match q with
  | .good => true
  | .degraded => true
  | .withheld => false
  | .lost => false

/-! ## Stamp slots (spec/10) -/

/-- A stamp event reaching its slot (R173). -/
def raiseSlot {α : Type} (slot : Slot α) (r : α) : Slot α :=
  match slot.held with
  | none => { slot with held := some r }
  | some _ => { slot with hidden := true }

/-- The slot after a STAMP_READ (R176). -/
def readSlot {α : Type} (slot : Slot α) : Slot α := { held := none, hidden := false, visible := slot.hidden }

/-- Several events of one kind reaching their slot in order (R175). -/
def raiseAll {α : Type} (slot : Slot α) (rs : List α) : Slot α := rs.foldl raiseSlot slot

end Sys2Proof.Machine
end

