-- ==== Sys2Proof/Machine/Arith.lean ====
section
/-! DEFINITION. The arithmetic words of spec/00_scope.md 4.3 and the fixed-point functions the chapters build on:
clamping, exact quotients, isqrt, the sine table and the four rounding modes. -/

namespace Sys2Proof.Machine

/-- `x` saturated to the range `lo` to `hi` (spec/00_scope.md 4.3). -/
def clamp (lo hi x : Int) : Int :=
  if x < lo then lo else if hi < x then hi else x

/-- Saturated to a signed 16-bit quantity, -32768 to 32767. -/
def sat16 (x : Int) : Int := clamp (-32768) 32767 x

/-- `a / b` rounded toward zero, written trunc in spec/00_scope.md 4.3. -/
def truncDiv (a b : Int) : Int := Int.tdiv a b

/-- An angle reduced to the circle, 0 to 65535 (R23). -/
def circle (a : Int) : Int := a % 65536

/-- The magnitude of `x`, exact. -/
def magnitude (x : Int) : Int := if x < 0 then -x else x

/-- One binary digit of the square root for each unit of fuel, from the highest down. -/
def isqrtLoop : Nat → Nat → Nat
  | 0, _ => 0
  | fuel + 1, n =>
    let r := 2 * isqrtLoop fuel (n / 4)
    if (r + 1) * (r + 1) ≤ n then r + 1 else r

/-- isqrt of spec/00_scope.md 4.3, for every `n` below 4 ^ 32; R64 forms products of 32 bits. -/
def isqrt (n : Nat) : Nat := isqrtLoop 32 n

/-- Entries 0 to 31 of the sine table (R24). -/
def sineSegment0 : List Nat :=
  [0, 101, 201, 302, 402, 503, 603, 704, 804, 904, 1005,
   1105, 1205, 1306, 1406, 1506, 1606, 1706, 1806, 1906, 2006, 2105,
   2205, 2305, 2404, 2503, 2603, 2702, 2801, 2900, 2999, 3098]

/-- Entries 32 to 63 of the sine table (R24). -/
def sineSegment1 : List Nat :=
  [3196, 3295, 3393, 3492, 3590, 3688, 3786, 3883, 3981, 4078, 4176,
   4273, 4370, 4467, 4563, 4660, 4756, 4852, 4948, 5044, 5139, 5235,
   5330, 5425, 5520, 5614, 5708, 5803, 5897, 5990, 6084, 6177]

/-- Entries 64 to 95 of the sine table (R24). -/
def sineSegment2 : List Nat :=
  [6270, 6363, 6455, 6547, 6639, 6731, 6823, 6914, 7005, 7096, 7186,
   7276, 7366, 7456, 7545, 7635, 7723, 7812, 7900, 7988, 8076, 8163,
   8250, 8337, 8423, 8509, 8595, 8680, 8765, 8850, 8935, 9019]

/-- Entries 96 to 127 of the sine table (R24). -/
def sineSegment3 : List Nat :=
  [9102, 9186, 9269, 9352, 9434, 9516, 9598, 9679, 9760, 9841, 9921,
   10001, 10080, 10159, 10238, 10316, 10394, 10471, 10549, 10625, 10702, 10778,
   10853, 10928, 11003, 11077, 11151, 11224, 11297, 11370, 11442, 11514]

/-- Entries 128 to 159 of the sine table (R24). -/
def sineSegment4 : List Nat :=
  [11585, 11656, 11727, 11797, 11866, 11935, 12004, 12072, 12140, 12207, 12274,
   12340, 12406, 12472, 12537, 12601, 12665, 12729, 12792, 12854, 12916, 12978,
   13039, 13100, 13160, 13219, 13279, 13337, 13395, 13453, 13510, 13567]

/-- Entries 160 to 191 of the sine table (R24). -/
def sineSegment5 : List Nat :=
  [13623, 13678, 13733, 13788, 13842, 13896, 13949, 14001, 14053, 14104, 14155,
   14206, 14256, 14305, 14354, 14402, 14449, 14497, 14543, 14589, 14635, 14680,
   14724, 14768, 14811, 14854, 14896, 14937, 14978, 15019, 15059, 15098]

/-- Entries 192 to 223 of the sine table (R24). -/
def sineSegment6 : List Nat :=
  [15137, 15175, 15213, 15250, 15286, 15322, 15357, 15392, 15426, 15460, 15493,
   15525, 15557, 15588, 15619, 15649, 15679, 15707, 15736, 15763, 15791, 15817,
   15843, 15868, 15893, 15917, 15941, 15964, 15986, 16008, 16029, 16049]

/-- Entries 224 to 256 of the sine table (R24). -/
def sineSegment7 : List Nat :=
  [16069, 16088, 16107, 16125, 16143, 16160, 16176, 16192, 16207, 16221, 16235,
   16248, 16261, 16273, 16284, 16295, 16305, 16315, 16324, 16332, 16340, 16347,
   16353, 16359, 16364, 16369, 16373, 16376, 16379, 16381, 16383, 16384, 16384]

/-- The quarter-wave table: entry `i` is 16384 times the sine of `i` times 90/256 degrees, rounded to the nearest
integer (R24; the entries the manual does not print are computed from that formula, log 21). -/
def sineTable : List Nat :=
  sineSegment0 ++ sineSegment1 ++ sineSegment2 ++ sineSegment3 ++
    sineSegment4 ++ sineSegment5 ++ sineSegment6 ++ sineSegment7

/-- Entry `S[i]` of R24. -/
def sineEntry (i : Nat) : Int := (sineTable.getD i 16384 : Nat)

/-- The interpolation I of R25, for an argument in 0 to 16384. -/
def quarterWave (x : Int) : Int :=
  if x = 16384 then 16384
  else
    let i := (x / 64).toNat
    let f := x % 64
    sineEntry i + ((sineEntry (i + 1) - sineEntry i) * f + 32) / 64

/-- The sine of an angle in 0 to 65535, in 1/16384 (R25). -/
def sine (a : Int) : Int :=
  let q := a / 16384
  let u := a % 16384
  let v := if q = 0 ∨ q = 2 then quarterWave u else quarterWave (16384 - u)
  if q = 0 ∨ q = 1 then v else -v

/-- The cosine, by R26. -/
def cosine (a : Int) : Int := sine (circle (a + 16384))

/-- A product divided by 16384 and rounded in the mode given (table of R28). -/
def roundTerm (mode : Rounding) (t : Int) : Int :=
  let q := t / 16384
  let e := t % 16384
  match mode with
  | .down => q
  | .up => if e = 0 then q else q + 1
  | .towardZero => if 0 ≤ t ∨ e = 0 then q else q + 1
  | .nearest =>
    if e < 8192 then q
    else if 8192 < e then q + 1
    else if q % 2 = 0 then q else q + 1

/-- The value between two points of a table at `x`, as R94 interpolates. -/
def interpolate (x x0 x1 y0 y1 : Int) : Int :=
  y0 + truncDiv ((y1 - y0) * (x - x0)) (x1 - x0)

end Sys2Proof.Machine
end

