-- ==== Sys2Proof/Machine/Layout.lean ====
section
/-! DEFINITION. The bit and byte layouts of spec/11 section 11.6: the identifier, SAMPLE, ZONE_EDIT, OUTPUT, the
RESPONSE header, the notice, and the RING_READ and ACCUM_READ answers. Multi-byte fields are little-endian, signed
fields two's complement. -/

namespace Sys2Proof.Machine

/-! ## Identifier -/

/-- The message code, bits 25 to 16 of an identifier. -/
def identCode (i : BitVec 29) : Nat := (i.toNat / 65536) % 1024

/-- The destination node, bits 15 to 8. -/
def identDest (i : BitVec 29) : Node := BitVec.ofNat 8 (i.toNat / 256)

/-- The source node, bits 7 to 0. -/
def identSource (i : BitVec 29) : Node := BitVec.ofNat 8 i.toNat

/-- The priority, bits 28 to 26. -/
def identPriority (i : BitVec 29) : Nat := i.toNat / 67108864

/-- An identifier put together from its four fields. -/
def makeIdent (priority code : Nat) (dest source : Node) : BitVec 29 :=
  BitVec.ofNat 29 (priority * 67108864 + (code % 1024) * 65536 + dest.toNat * 256 + source.toNat)

/-! ## Reading bytes -/

/-- Byte `i` of a frame's data. -/
def byteAt (b : List Byte) (i : Nat) : Nat := (b.getD i 0).toNat

/-- The unsigned 16-bit field at byte `i`. -/
def wordAt (b : List Byte) (i : Nat) : Nat := byteAt b i + 256 * byteAt b (i + 1)

/-- A 16-bit pattern as a two's complement value. -/
def signed16 (n : Nat) : Int := if n < 32768 then (n : Int) else (n : Int) - 65536

/-- The signed 16-bit field at byte `i`. -/
def signedAt (b : List Byte) (i : Nat) : Int := signed16 (wordAt b i)

/-- Flag `k` of a field, bit 0 the least significant. -/
def flagOf (n k : Nat) : Bool := (n / 2 ^ k) % 2 = 1

/-- The validity mask: bits 0 to 13 in the order of the fourteen channels. -/
def readValidity (n : Nat) : Validity :=
  { boomPrimary := flagOf n 0, boomSecondary := flagOf n 1, arm := flagOf n 2, bucket := flagOf n 3, slew := flagOf n 4
    pitch := flagOf n 5, roll := flagOf n 6, boomHead := flagOf n 7, boomRod := flagOf n 8, armHead := flagOf n 9
    engine := flagOf n 10, fuel := flagOf n 11, coolant := flagOf n 12, oil := flagOf n 13 }

/-- SAMPLE (34 bytes), with the limits of R181 applied; none for a shorter frame. -/
def readSample (b : List Byte) : Option Sample :=
  if b.length < 34 then none
  else some
    { seq := byteAt b 0
      lever := flagOf (byteAt b 1) 0
      travel := flagOf (byteAt b 1) 1
      operator := flagOf (byteAt b 1) 2
      timestamp := wordAt b 2
      valid := readValidity (wordAt b 4)
      boomPrimary := signedAt b 6
      boomSecondary := signedAt b 8
      arm := signedAt b 10
      bucket := signedAt b 12
      slew := wordAt b 14
      pitch := signedAt b 16
      roll := signedAt b 18
      boomHead := min 65000 (wordAt b 20)
      boomRod := min 65000 (wordAt b 22)
      armHead := min 65000 (wordAt b 24)
      engine := wordAt b 26
      fuel := min 10000 (wordAt b 28)
      coolant := clamp (-40) 150 (signedAt b 30)
      oil := clamp (-40) 150 (signedAt b 32) }

/-- Kind codes of ZONE_EDIT. -/
def readKind : Nat → Option ZoneKind
  | 0 => some .sectorStop
  | 1 => some .ceiling
  | 2 => some .floor
  | 3 => some .reachWall
  | _ => none

/-! ## Writing bytes -/

/-- The byte of a number, modulo 256. -/
def toByte (n : Nat) : Byte := BitVec.ofNat 8 n

/-- The two bytes of an unsigned 16-bit field. -/
def wordBytes (n : Nat) : List Byte := [toByte n, toByte (n / 256)]

/-- The two bytes of a 16-bit field that may be signed. -/
def intBytes (x : Int) : List Byte := wordBytes (x % 65536).toNat

/-- The `k` bytes of a number, least significant first. -/
def numberBytes : Nat → Nat → List Byte
  | 0, _ => []
  | k + 1, n => toByte n :: numberBytes k (n / 256)

/-- A mark as a bit. -/
def bit (b : Bool) : Nat := if b then 1 else 0

/-- The validity mask as a number. -/
def validityMask (v : Validity) : Nat :=
  bit v.boomPrimary + 2 * bit v.boomSecondary + 4 * bit v.arm + 8 * bit v.bucket + 16 * bit v.slew + 32 * bit v.pitch +
    64 * bit v.roll + 128 * bit v.boomHead + 256 * bit v.boomRod + 512 * bit v.armHead + 1024 * bit v.engine +
    2048 * bit v.fuel + 4096 * bit v.coolant + 8192 * bit v.oil

/-- SAMPLE as its 34 bytes. -/
def sampleBytes (s : Sample) : List Byte :=
  [toByte s.seq, toByte (bit s.lever + 2 * bit s.travel + 4 * bit s.operator)] ++ wordBytes s.timestamp ++
    wordBytes (validityMask s.valid) ++ intBytes s.boomPrimary ++ intBytes s.boomSecondary ++ intBytes s.arm ++
    intBytes s.bucket ++ intBytes s.slew ++ intBytes s.pitch ++ intBytes s.roll ++ intBytes s.boomHead ++
    intBytes s.boomRod ++ intBytes s.armHead ++ intBytes s.engine ++ intBytes s.fuel ++ intBytes s.coolant ++
    intBytes s.oil

/-- Quality codes of OUTPUT. -/
def qualityCode : Quality → Nat
  | .good => 0
  | .degraded => 1
  | .withheld => 2
  | .lost => 3

/-- Phase codes of OUTPUT. -/
def phaseCode : Phase → Nat
  | .idle => 0
  | .dig => 1
  | .swingLoaded => 2
  | .dump => 3
  | .swingEmpty => 4

/-- OUTPUT (18 bytes; R166). An absent sequence is sent with its presence bit clear. DESIGN CHOICE: byte 0 is then 0, of
which section 11.6 says nothing (log 31). -/
def outputBytes (o : OutputMessage) : List Byte :=
  [toByte (o.seq.getD 0),
    toByte (bit o.seq.isSome + 2 * bit o.fallback + 4 * bit o.advise + 8 * qualityCode o.quality +
      32 * phaseCode o.phase)] ++
    intBytes o.scales.p0 ++ intBytes o.scales.p1 ++ intBytes o.scales.p2 ++ intBytes o.scales.p3 ++
    intBytes o.scales.p4 ++ intBytes o.scales.p5 ++ intBytes o.target ++ intBytes o.next

/-- Kind codes of ZONE_EDIT, as written. -/
def kindCode : ZoneKind → Nat
  | .sectorStop => 0
  | .ceiling => 1
  | .floor => 2
  | .reachWall => 3

/-- ZONE_EDIT WRITE as its 12 bytes. -/
def zoneWriteBytes (number : Nat) (b : ZoneBody) : List Byte :=
  [toByte number, 0, toByte (kindCode b.kind), toByte (bit b.full)] ++ intBytes b.start ++ intBytes b.stop ++
    intBytes b.limit ++ intBytes b.margin

/-- Result codes of the RESPONSE header. -/
def resultCode : Result → Nat
  | .ok => 0
  | .notPermitted => 1
  | .badField => 2
  | .isProtected => 3
  | .busy => 4
  | .wrongState => 5
  | .notFound => 6

/-- The RESPONSE header (bytes 0 to 2). -/
def responseHeader (code : Nat) (r : Result) : List Byte := wordBytes code ++ [toByte (resultCode r)]

/-- Notice kind codes. -/
def noticeKindCode : NoticeKind → Nat
  | .rise => 0
  | .repeated => 1
  | .reset => 2
  | .fault => 3

/-- State-after codes of a notice; the states no notice carries share the code of DORMANT. -/
def itemStateCode : ItemState → Nat
  | .empty => 0
  | .retiring => 0
  | .dormant => 0
  | .warn => 1
  | .due => 2
  | .overdue => 3
  | .faulted => 4

/-- Severity codes of a notice. -/
def severityCode : Severity → Nat
  | .advisory => 0
  | .critical => 1

/-- A notice as a RING_READ answer carries it (7 bytes). -/
def noticeBytes (n : PlacedNotice) : List Byte :=
  [toByte n.position, toByte n.notice.item,
    toByte (noticeKindCode n.notice.kind + 4 * itemStateCode n.notice.state + 32 * severityCode n.notice.severity)] ++
    numberBytes 4 n.notice.basis

/-- A RING_READ answer behind its header. -/
def ringReadBytes (unread : Nat) (lost : Bool) (ns : List PlacedNotice) : List Byte :=
  [toByte unread, toByte (bit lost), toByte ns.length] ++ ns.flatMap noticeBytes

/-- Six marks as a mask, in accumulator order. -/
def sixMask (m : Six Bool) : Nat :=
  bit m.p0 + 2 * bit m.p1 + 4 * bit m.p2 + 8 * bit m.p3 + 16 * bit m.p4 + 32 * bit m.p5

/-- How many bytes an accumulator's value takes in the ACCUM_READ answer. -/
def accumWidth : Accum → Nat
  | .fuel => 5
  | .slew => 6
  | _ => 4

/-- The values of the present accumulators, in accumulator order, each in its own width. -/
def accumValueBytes (presence : Six Bool) (values : List Nat) : List Byte :=
  ((allAccums.filter fun a => accGet presence a).zip values).flatMap fun x => numberBytes (accumWidth x.1) x.2

/-- An ACCUM_READ answer behind its header. -/
def accumReadBytes (presence lost : Six Bool) (rated : Nat) (values : List Nat) : List Byte :=
  [toByte (sixMask presence), toByte (sixMask lost)] ++ wordBytes rated ++ accumValueBytes presence values

/-- The data bytes of a frame the part sends, where section 11.6 gives the layout (log 6). -/
def bodyBytes : TxBody → Option (List Byte)
  | .output o => some (outputBytes o)
  | .response code r (.ringRead unread lost ns) => some (responseHeader code r ++ ringReadBytes unread lost ns)
  | .response code r (.accumRead presence lost rated values) =>
    some (responseHeader code r ++ accumReadBytes presence lost rated values)
  | _ => none

end Sys2Proof.Machine
end

