-- ==== Sys2Proof/Machine/Operands.lean ====
section
/-! DEFINITION. Reading a received frame: which request it is, which command takes it, on which links it is permitted,
whether it is long enough, and the request's fields checked and clamped as its rule gives. -/

namespace Sys2Proof.Machine

/-! ## Requests, codes and permissions (spec/11 section 11.2) -/

/-- The requests of the table of section 11.2, one per message code. -/
inductive Request
  | sample | keyOff | regenDemand | statusQuery | identify | setMode | touchIdle | zoneEdit | setGrade | ackItem
  | ringRead | ringAdvance | ringClearLost | stampRead | setGeometry | setSolver | readFlags | clearFlags | setLadder
  | testDemand | setEconomy | setAids | itemDefine | serviceDone | itemRetire | accumRead | accumSet | setOutputPeriod
  | restart
  deriving DecidableEq, Repr

/-- The request a message code names; none for every other code, the codes the part only sends among them (R181). -/
def requestOf : Nat → Option Request
  | 16 => some .sample
  | 17 => some .keyOff
  | 18 => some .regenDemand
  | 32 => some .statusQuery
  | 33 => some .identify
  | 48 => some .setMode
  | 49 => some .touchIdle
  | 64 => some .zoneEdit
  | 65 => some .setGrade
  | 80 => some .ackItem
  | 96 => some .ringRead
  | 97 => some .ringAdvance
  | 98 => some .ringClearLost
  | 112 => some .stampRead
  | 128 => some .setGeometry
  | 129 => some .setSolver
  | 130 => some .readFlags
  | 131 => some .clearFlags
  | 144 => some .setLadder
  | 145 => some .testDemand
  | 146 => some .setEconomy
  | 160 => some .setAids
  | 176 => some .itemDefine
  | 177 => some .serviceDone
  | 178 => some .itemRetire
  | 192 => some .accumRead
  | 193 => some .accumSet
  | 208 => some .setOutputPeriod
  | 224 => some .restart
  | _ => none

/-- The links a request is permitted on (table of section 11.2). -/
def permitted (r : Request) (l : Link) : Bool :=
  match r, l with
  | .sample, .ml => true
  | .keyOff, .ml => true
  | .regenDemand, .ml => true
  | .statusQuery, _ => true
  | .identify, _ => true
  | .setMode, .cl => true
  | .touchIdle, .cl => true
  | .zoneEdit, .cl => true
  | .zoneEdit, .sl => true
  | .setGrade, .cl => true
  | .setGrade, .sl => true
  | .ackItem, .cl => true
  | .ackItem, .sl => true
  | .ringRead, .cl => true
  | .ringRead, .sl => true
  | .ringAdvance, .cl => true
  | .ringAdvance, .sl => true
  | .ringClearLost, .cl => true
  | .ringClearLost, .sl => true
  | .stampRead, .cl => true
  | .stampRead, .sl => true
  | .setGeometry, .sl => true
  | .setSolver, .sl => true
  | .readFlags, .sl => true
  | .clearFlags, .sl => true
  | .setLadder, .sl => true
  | .testDemand, .sl => true
  | .setEconomy, .sl => true
  | .setAids, .sl => true
  | .itemDefine, .sl => true
  | .serviceDone, .sl => true
  | .itemRetire, .sl => true
  | .accumRead, .sl => true
  | .accumSet, .sl => true
  | .setOutputPeriod, .sl => true
  | .restart, .sl => true
  | _, _ => false

/-- The message code of a received frame; an 11-bit identifier is never queued, and reads as code 0 (R179). -/
def frameCode (f : RxFrame) : Nat :=
  match f.ident with
  | .extended i => identCode i
  | .standard _ => 0

/-! ## Which command takes a frame -/

/-- The command of the table that takes a ZONE_EDIT's data, by its action byte; a frame too short to hold one, and an
action that is none of the four, belong to ZONE_EDIT_WRITE (log 17). -/
def zoneTaker (l : Link) (d : Payload) : Instr :=
  match d with
  | .bytes b =>
    match byteAt b 1 with
    | 1 => .zoneEditDelete l
    | 2 => .zoneEditSuspend l
    | 3 => .zoneEditResume l
    | _ => .zoneEditWrite l
  | _ => .zoneEditWrite l

/-- The command that takes a frame standing at the head of link `l`'s receive queue. A frame whose action code names no
choice belongs to the first row of its group (log 17). -/
def takerOf (l : Link) (f : RxFrame) : Instr :=
  match requestOf (frameCode f) with
  | none => .unknownRequest l
  | some .sample => .sample l
  | some .keyOff => .keyOff l
  | some .regenDemand =>
    match f.data with
    | .regenDemand (some .withdraw) _ _ _ => .regenDemandWithdraw l
    | _ => .regenDemandPlace l
  | some .statusQuery => .statusQuery l
  | some .identify => .identify l
  | some .setMode =>
    match f.data with
    | .setMode (some .off) => .setModeOff l
    | _ => .setMode l
  | some .touchIdle =>
    match f.data with
    | .touchIdle (some false) => .touchIdleOff l
    | _ => .touchIdleOn l
  | some .zoneEdit => zoneTaker l f.data
  | some .setGrade =>
    match f.data with
    | .setGrade (some .clear) _ => .setGradeClear l
    | _ => .setGradeSet l
  | some .ackItem => .ackItem l
  | some .ringRead => .ringRead l
  | some .ringAdvance => .ringAdvance l
  | some .ringClearLost => .ringClearLost l
  | some .stampRead => .stampRead l
  | some .setGeometry => .setGeometry l
  | some .setSolver => .setSolver l
  | some .readFlags => .readFlags l
  | some .clearFlags => .clearFlags l
  | some .setLadder => .setLadder l
  | some .testDemand =>
    match f.data with
    | .testDemand _ (some .withdraw) _ _ _ => .testDemandWithdraw l
    | _ => .testDemandPlace l
  | some .setEconomy => .setEconomy l
  | some .setAids =>
    match f.data with
    | .aidTable _ => .setAidsTable l
    | _ => .setAidsThresholds l
  | some .itemDefine => .itemDefine l
  | some .serviceDone => .serviceDone l
  | some .itemRetire => .itemRetire l
  | some .accumRead => .accumRead l
  | some .accumSet =>
    match f.data with
    | .accumSet (some .ratedFuel) _ => .accumSetRatedFuel l
    | _ => .accumSet l
  | some .setOutputPeriod => .setOutputPeriod l
  | some .restart => .restart l

/-- Check 4 of R181: the frame holds its request's fixed fields. Bytes are counted where section 11.6 gives the layout;
for the other requests the data must be of the request's own form (log 5). -/
def longEnough (r : Request) (d : Payload) : Bool :=
  match r, d with
  | .sample, .bytes b => 34 ≤ b.length
  | .sample, _ => false
  | .keyOff, _ => true
  | .statusQuery, _ => true
  | .identify, _ => true
  | .ringRead, _ => true
  | .readFlags, _ => true
  | .accumRead, _ => true
  | .zoneEdit, .bytes b => if byteAt b 1 = 0 then 12 ≤ b.length else 2 ≤ b.length
  | .regenDemand, .regenDemand .. => true
  | .setMode, .setMode _ => true
  | .touchIdle, .touchIdle _ => true
  | .setGrade, .setGrade .. => true
  | .ackItem, .item _ => true
  | .serviceDone, .item _ => true
  | .itemRetire, .item _ => true
  | .ringAdvance, .ringAdvance _ => true
  | .ringClearLost, .ringClearLost _ => true
  | .stampRead, .stampRead _ => true
  | .setGeometry, .geometry _ => true
  | .setSolver, .solver .. => true
  | .clearFlags, .clearFlags .. => true
  | .setLadder, .ladder _ => true
  | .testDemand, .testDemand .. => true
  | .setEconomy, .economy _ => true
  | .setAids, .aidThresholds _ => true
  | .setAids, .aidTable _ => true
  | .setAids, .aidOther => true
  | .itemDefine, .itemDefine .. => true
  | .accumSet, .accumSet .. => true
  | .setOutputPeriod, .outputPeriod _ => true
  | .restart, .restart _ => true
  | _, _ => false

/-! ## Fields as taken -/

/-- An engine speed, 700 to 2100 rpm. -/
def clampRpm (x : Int) : Int := clamp 700 2100 x

/-- A duration or wait limit: 0 is absent, any other value is clamped (R121, R122). -/
def clampSpan (lo x : Nat) : Option Nat := if x = 0 then none else some (max lo (min 600000 x))

/-- A range bound as the frame's signed field carries it; every such value is legal (R36). -/
def clampRange (r : AngleRange) : AngleRange := ⟨sat16 r.lo, sat16 r.hi⟩

/-- Some mechanical range has min above max (R36). -/
def rangesCrossed (g : Geometry) : Bool :=
  g.boomRange.hi < g.boomRange.lo || g.armRange.hi < g.armRange.lo || g.bucketRange.hi < g.bucketRange.lo ||
    g.pitchRange.hi < g.pitchRange.lo

/-- SET_GEOMETRY's record with every field clamped to its range (R36). -/
def clampGeometry (g : Geometry) : Geometry :=
  { x0 := clamp (-2000) 4000 g.x0, z0 := clamp 0 5000 g.z0
    lb := clamp 500 20000 g.lb, la := clamp 500 20000 g.la, lk := clamp 500 20000 g.lk
    boomRange := clampRange g.boomRange, armRange := clampRange g.armRange
    bucketRange := clampRange g.bucketRange, pitchRange := clampRange g.pitchRange
    rollLimit := clamp 0 16384 g.rollLimit, tolerance := clamp 0 8192 g.tolerance
    ratedSlew := clamp 1000 20000 g.ratedSlew
    alphaEmpty := clamp 100 20000 g.alphaEmpty, alphaLoaded := clamp 100 20000 g.alphaLoaded
    slewGuard := clamp 0 8192 g.slewGuard, escape := clamp 0 1000 g.escape
    fallback := sixActs fun a => clamp 0 1000 (actGet g.fallback a) }

/-- SET_SOLVER as taken; none where it is refused (R38). -/
def takeControl (rounding : Option Rounding) (enables : CauseMarks) (alien flush : Bool) (deadBand staleLimit : Int) :
    Option SolverControl :=
  match rounding, alien with
  | some m, false =>
    some { rounding := m, enables := enables, flush := flush, deadBand := clamp 0 2000 deadBand
           staleLimit := clamp 40 500 staleLimit }
  | _, _ => none

/-- The margin's range by kind (R43). -/
def clampMargin (k : ZoneKind) (m : Int) : Int :=
  match k with
  | .sectorStop => clamp 0 8192 m
  | _ => clamp 0 5000 m

/-- A zone body clamped as R43 gives. -/
def clampZone (b : ZoneBody) : ZoneBody :=
  { b with margin := clampMargin b.kind b.margin, limit := if b.kind = .sectorStop then 0 else b.limit }

/-- The sector width of R40. -/
def sectorWidth (b : ZoneBody) : Int := circle (b.stop - b.start)

/-- The fields of a ZONE_EDIT WRITE from its bytes; none where the kind code is not one of the four. -/
def readZoneBody (b : List Byte) : Option ZoneBody :=
  (readKind (byteAt b 2)).map fun k =>
    { kind := k, start := wordAt b 4, stop := wordAt b 6, full := flagOf (byteAt b 3) 0, limit := signedAt b 8
      margin := wordAt b 10 }

/-- The WRITE of a ZONE_EDIT as taken; none where R43 refuses its kind or its width. -/
def takeZoneWrite (b : List Byte) : Option ZoneAction :=
  match readZoneBody b with
  | some z => if sectorWidth z = 0 ∧ z.full = false then none else some (.write (clampZone z))
  | none => none

/-- A ZONE_EDIT as taken: its zone number and action with values clamped; none where R43 refuses it. -/
def takeZoneEdit (d : Payload) : Option (Nat × ZoneAction) :=
  match d with
  | .bytes b =>
    if Config.zoneCount ≤ byteAt b 0 then none
    else
      match byteAt b 1 with
      | 0 => (takeZoneWrite b).map fun a => (byteAt b 0, a)
      | 1 => some (byteAt b 0, .delete)
      | 2 => some (byteAt b 0, .suspend)
      | 3 => some (byteAt b 0, .resume)
      | _ => none
  | _ => none

/-- SET_GRADE's fields clamped as R52 gives. -/
def clampPlane (p : PlaneBody) : PlaneBody :=
  { p with elevation := sat16 p.elevation, slope := clamp (-1000) 1000 p.slope, tolerance := clamp 0 500 p.tolerance
           margin := clamp 0 5000 p.margin }

/-- SET_GRADE as taken; none where the action code is neither SET nor CLEAR (R52). -/
def takePlane (action : Option GradeAction) (p : PlaneBody) : Option PlaneAction :=
  match action with
  | some .set => some (.set (clampPlane p))
  | some .clear => some .clear
  | none => none

/-- SET_AIDS THRESHOLDS as taken; none where N is not 1, 4 or 16 (R99). -/
def takeAid (r : AidRecord) : Option AidRecord :=
  if r.prescale = 1 ∨ r.prescale = 4 ∨ r.prescale = 16 then
    some { digPressure := clamp 0 65000 r.digPressure, omegaStill := clamp 0 40000 r.omegaStill
           omegaSwing := clamp 0 40000 r.omegaSwing, curl := sat16 r.curl, dump := sat16 r.dump
           timeout := clamp 5 120 r.timeout, settle := clamp 0 15 r.settle
           boostPressure := clamp 0 65000 r.boostPressure, headArea := clamp 0 2000000 r.headArea
           rodArea := clamp 0 2000000 r.rodArea, prescale := r.prescale }
  else none

/-- A payload point with its gain clamped (R100). -/
def clampPoint (p : PayloadPoint) : PayloadPoint :=
  { reach := sat16 p.reach, empty := sat16 p.empty, gain := clamp 0 10000 p.gain }

/-- The r values strictly increase from the first point to the eighth (R100). -/
def strictlyRising (t : Eight PayloadPoint) : Bool :=
  t.p0.reach < t.p1.reach && t.p1.reach < t.p2.reach && t.p2.reach < t.p3.reach && t.p3.reach < t.p4.reach &&
    t.p4.reach < t.p5.reach && t.p5.reach < t.p6.reach && t.p6.reach < t.p7.reach

/-- SET_AIDS TABLE as taken; none where the points do not strictly increase (R100). -/
def takeTable (t : Eight PayloadPoint) : Option (Eight PayloadPoint) :=
  if strictlyRising (eightMap clampPoint t) then some (eightMap clampPoint t) else none

/-- The eight order modes, when each code is FIFO or LIFO (R123). -/
def takeOrders (o : Eight (Option OrderMode)) : Option (Eight OrderMode) :=
  match o with
  | ⟨some a, some b, some c, some d, some e, some f, some g, some h⟩ => some ⟨a, b, c, d, e, f, g, h⟩
  | _ => none

/-- SET_LADDER as taken; none where an order mode code is refused (R123). -/
def takeLadder (c : LadderRequest) : Option LadderConfig :=
  (takeOrders c.orders).map fun o =>
    { levels := eightMap (fun n => min 7 n) c.levels, orders := o
      power := clampRpm c.power, standard := clampRpm c.standard, economy := clampRpm c.economy, lift := clampRpm c.lift
      idle := clampRpm c.idle, travel := clampRpm c.travel, boost := clampRpm c.boost
      boostTime := clamp 1 60 c.boostTime }

/-- A field that is 0, or clamped to a range above 0 (fleet cap and shutdown delay of R124). -/
def zeroOrClamp (lo hi x : Int) : Int := if x ≤ 0 then 0 else clamp lo hi x

/-- SET_ECONOMY as taken (R124): each field clamped, and a T2 below T1 taken as T1. -/
def takeEconomy (e : Economy) : Economy :=
  { fleetCap := zeroOrClamp 700 2100 e.fleetCap, idleDelay := clamp 3 600 e.idleDelay
    shutdownDelay := zeroOrClamp 60 3600 e.shutdownDelay
    t1 := clamp (-40) 150 e.t1, c1 := clampRpm e.c1
    t2 := max (clamp (-40) 150 e.t1) (clamp (-40) 150 e.t2), c2 := clampRpm e.c2
    warmThreshold := clamp (-40) 150 e.warmThreshold, warmFloor := clampRpm e.warmFloor, derate := clampRpm e.derate }

/-- The greatest value of an accumulator's range (table of spec/07 section 7.1). -/
def accumMax : Accum → Nat
  | .fuel => 1099511627775
  | .slew => 281474976710655
  | _ => 4294967295

/-- ITEM_DEFINE's fields as taken (R148); the baseline is set where the item is defined. -/
def takeItem (basis : Accum) (severity : Severity) (interval warnAhead overdueAfter repeatEvery : Nat) : ItemFields :=
  let i := max 1 (min 65535 interval)
  { basis := basis, severity := severity, interval := i, warnAhead := min i warnAhead
    overdueAfter := max 1 (min 65535 overdueAfter), repeatEvery := min 65535 repeatEvery, baseline := 0
    acknowledged := false }

/-- On some port of a node record the own node equals the partner node (R191). -/
def nodesClash (n : NodesRecord) : Bool :=
  n.ml.own = n.ml.partner || n.cl.own = n.cl.partner || n.sl.own = n.sl.partner

end Sys2Proof.Machine
end

