-- ==== Sys2Proof/Machine/Ops.lean ====
section
/-! DEFINITION. The operations the meanings share: the ports and their queues, taking a request and answering it, the
store's dirty marks and triggers, stamps, the time base, and the entry into LOADING. -/

namespace Sys2Proof.Machine

/-! ## Ports -/

/-- The port of a link. -/
def portOf (s : State) : Link → Port
  | .ml => s.ports.ml
  | .cl => s.ports.cl
  | .sl => s.ports.sl

/-- The state with one port replaced. -/
def setPort (l : Link) (p : Port) (s : State) : State :=
  match l with
  | .ml => { s with ports := { s.ports with ml := p } }
  | .cl => { s with ports := { s.ports with cl := p } }
  | .sl => { s with ports := { s.ports with sl := p } }

/-- A transmit queue has a place neither holding a frame nor reserved (R181). -/
def hasPlace (p : Port) : Bool := p.tx.length + p.reserved < Config.txCapacity

/-- The priority of a message's class (R179). -/
def bodyPriority : TxBody → Nat
  | .output _ => 1
  | .response .. => 3
  | .cabView _ => 5
  | _ => 4

/-- The message code of a message the part sends (section 11.2). -/
def bodyCode : TxBody → Nat
  | .output _ => 256
  | .cabView _ => 257
  | .response .. => 272
  | .demandDropped .. => 288
  | .ringWatermark .. => 289
  | .retireDone _ => 290
  | .saveDone .. => 291

/-- The frame a port makes of a message: own node as source, partner as destination (R179). -/
def frameOf (p : Port) (b : TxBody) : TxFrame :=
  ⟨makeIdent (bodyPriority b) (bodyCode b) p.nodes.partner p.nodes.own, b⟩

/-- The port with a message at the tail of its transmit queue. -/
def emit (p : Port) (b : TxBody) : Port := { p with tx := p.tx ++ [frameOf p b] }

/-- OUTPUT or CAB_VIEW (R182). -/
def isPeriodic (f : TxFrame) : Bool :=
  match f.body with
  | .output _ => true
  | .cabView _ => true
  | _ => false

/-- A periodic message produced for a port (R182, R183). -/
def offerPeriodic (p : Port) (b : TxBody) : Port :=
  if p.state = .active ∧ hasPlace p then emit p b else p

/-- A notice message produced for a port (R182, R183): into a free place, else in place of the oldest periodic frame
that waits, at the tail of the sending order (log 12), else discarded. -/
def offerNotice (p : Port) (b : TxBody) : Port :=
  if p.state = .busOff then p
  else if hasPlace p then emit p b
  else if p.tx.any isPeriodic then emit { p with tx := p.tx.eraseP isPeriodic } b
  else p

/-- An answer produced for a port: it enters the place reserved for it, unless the port has gone BUS_OFF since the
request was taken (R182, R183). -/
def offerAnswer (p : Port) (owed : Bool) (b : TxBody) : Port :=
  if owed then
    if p.state = .active then emit { p with reserved := p.reserved - 1 } b else { p with reserved := p.reserved - 1 }
  else p

/-- Send a periodic message on a link. -/
def sendPeriodic (l : Link) (b : TxBody) (s : State) : State := setPort l (offerPeriodic (portOf s l) b) s

/-- Send a notice message on a link. -/
def sendNotice (l : Link) (b : TxBody) (s : State) : State := setPort l (offerNotice (portOf s l) b) s

/-- Send an answer on a link. -/
def sendAnswer (l : Link) (owed : Bool) (b : TxBody) (s : State) : State :=
  setPort l (offerAnswer (portOf s l) owed b) s

/-- The message code of a request (table of section 11.2). -/
def requestCode : Request → Nat
  | .sample => 16
  | .keyOff => 17
  | .regenDemand => 18
  | .statusQuery => 32
  | .identify => 33
  | .setMode => 48
  | .touchIdle => 49
  | .zoneEdit => 64
  | .setGrade => 65
  | .ackItem => 80
  | .ringRead => 96
  | .ringAdvance => 97
  | .ringClearLost => 98
  | .stampRead => 112
  | .setGeometry => 128
  | .setSolver => 129
  | .readFlags => 130
  | .clearFlags => 131
  | .setLadder => 144
  | .testDemand => 145
  | .setEconomy => 146
  | .setAids => 160
  | .itemDefine => 176
  | .serviceDone => 177
  | .itemRetire => 178
  | .accumRead => 192
  | .accumSet => 193
  | .setOutputPeriod => 208
  | .restart => 224

/-- The RESPONSE of a request that has just been taken and is answered at once (R184). -/
def reply (l : Link) (r : Request) (result : Result) (e : Echo) (s : State) : State :=
  sendAnswer l true (.response (requestCode r) result e) s

/-- The RESPONSE of a request that waited in a queue of its owner; `owed` is false once its port has gone BUS_OFF. -/
def replyLater (l : Link) (owed : Bool) (r : Request) (result : Result) (e : Echo) (s : State) : State :=
  sendAnswer l owed (.response (requestCode r) result e) s

/-! ## Receiving and taking frames -/

/-- A port accepts a frame: a 29-bit identifier whose destination is its own node and whose source is its partner
(R179). -/
def accepts (p : Port) (f : RxFrame) : Bool :=
  match f.ident with
  | .extended i => identDest i = p.nodes.own && identSource i = p.nodes.partner
  | .standard _ => false

/-- The port after a frame on its bus (R179, R180): BUS_OFF receives nothing (R183). -/
def receiveFrame (p : Port) (f : RxFrame) : Port :=
  if p.state = .busOff then p
  else if accepts p f then
    if p.rx.length < Config.rxCapacity then { p with rx := p.rx ++ [f] } else { p with overrun := true }
  else p

/-- The frame at the head of a link's receive queue, when the port takes frames at all: in WAITING and RUNNING, and not
in BUS_OFF (R181, R183). -/
def headFrame (s : State) (l : Link) : Option RxFrame :=
  if s.part = .loading ∨ (portOf s l).state = .busOff then none else (portOf s l).rx.head?

/-- The state with link `l`'s head frame taken and a place reserved for its answer (R181). -/
def takeHead (l : Link) (s : State) : State :=
  setPort l { portOf s l with rx := (portOf s l).rx.tail, reserved := (portOf s l).reserved + 1 } s

/-- The checks of R181 on a frame just taken, in their order; a request that passes goes to its owner. -/
def checkRequest (l : Link) (f : RxFrame) (serve : Payload → State → State) (s : State) : State :=
  match requestOf (frameCode f) with
  | none => sendAnswer l true (.response (frameCode f) .badField (.received f.data)) s
  | some r =>
    if permitted r l = false then reply l r .notPermitted (.received f.data) s
    else if s.store.restartPending then reply l r .busy (.received f.data) s
    else if longEnough r f.data = false then reply l r .badField (.received f.data) s
    else serve f.data s

/-- Port `l` takes the frame at the head of its receive queue, when the command `me` is the one that takes it and the
transmit queue has a free place; otherwise nothing is taken and nothing changes (R181, log 3). -/
def takeRequest (me : Instr) (l : Link) (serve : Payload → State → State) (s : State) : State :=
  match headFrame s l with
  | none => s
  | some f =>
    if takerOf l f = me ∧ hasPlace (portOf s l) then checkRequest l f serve (takeHead l s) else s

/-! ## Stamps -/

/-- Raise STORE_FAULT for a record (R174). -/
def raiseStoreFault (o : FaultOccasion) (r : RecordId) (s : State) : State :=
  { s with stamps := { s.stamps with storeFault := raiseSlot s.stamps.storeFault ⟨o, r⟩ } }

/-! ## The stored image (spec/11 section 11.4) -/

/-- The records of the image, in the order in which the load examines them and a save writes them. -/
def imageOrder : List RecordId :=
  [.nodes, .geometry, .solver] ++ (List.range Config.zoneCount).map RecordId.zone ++
    [.grade, .aid, .payloadTable, .ladder, .economy, .duty] ++ allAccums.map RecordId.accumulator ++
    (List.range Config.itemCount).map RecordId.item ++ [.watermark, .outputPeriod]

/-- An ACCUMULATOR record: written by every save, without a dirty mark (R139, R187). -/
def isAccumRecord : RecordId → Bool
  | .accumulator _ => true
  | _ => false

/-- What the image holds of a zone entry: a SITE zone, or no zone (spec/03 section 3.6). -/
def storedZone : Zone → Option StoredZone
  | .active .site b => some ⟨true, b⟩
  | .suspended .site b => some ⟨false, b⟩
  | _ => none

/-- What the image holds of the grade plane: a SITE plane, or none (spec/03 section 3.6). -/
def storedPlane : GradePlane → Option PlaneBody
  | .present .site p => some p
  | _ => none

/-- The fields of a geometry record, or the working defaults in their place (R35). -/
def geometryFields : GeometryRecord → Geometry
  | .present g => g
  | _ => workingGeometry

/-- What the image holds of an item: a RETIRING item is stored as no item (R152). -/
def storedItem (i : Item) : Option ItemFields :=
  match i.state with
  | .empty => none
  | .retiring => none
  | _ => i.fields

/-- The content of a record as the blocks hold it now (R188; log 26). -/
def snapshot (s : State) : RecordId → SnapRecord
  | .nodes => .nodes s.store.nodes
  | .geometry => .geometry (geometryFields s.solver.geometry)
  | .solver => .solver s.solver.control
  | .zone i => .zone i (storedZone (s.table.zones.getD i .empty))
  | .grade => .grade (storedPlane s.table.plane)
  | .aid => .aid s.aid.record
  | .payloadTable => .payloadTable s.aid.table
  | .ladder => .ladder s.ladder.config
  | .economy => .economy s.ladder.economy
  | .duty => .duty s.duty.ratedFuel
  | .accumulator a => .accumulator a (accGet s.duty.values a)
  | .item i => .item i (storedItem (s.items.getD i emptyItem))
  | .watermark => .watermark ⟨s.ring.cab.watermark, s.ring.service.watermark⟩
  | .outputPeriod => .outputPeriod s.output.period

/-- The name of a snapshot record. -/
def snapId : SnapRecord → RecordId
  | .nodes _ => .nodes
  | .geometry _ => .geometry
  | .solver _ => .solver
  | .zone i _ => .zone i
  | .grade _ => .grade
  | .aid _ => .aid
  | .payloadTable _ => .payloadTable
  | .ladder _ => .ladder
  | .economy _ => .economy
  | .duty _ => .duty
  | .accumulator a _ => .accumulator a
  | .item i _ => .item i
  | .watermark _ => .watermark
  | .outputPeriod _ => .outputPeriod

/-- A stored record: whole with a fresh check code, or failing its check (R188). -/
def storedAs {α : Type} (ok : Bool) (a : α) : Stored α := if ok then .good a else .bad

/-- The image with one record written, whole or with its check code spoiled. -/
def putRecord (ok : Bool) (r : SnapRecord) (m : Image) : Image :=
  match r with
  | .nodes n => { m with nodes := storedAs ok n }
  | .geometry g => { m with geometry := storedAs ok g }
  | .solver c => { m with solver := storedAs ok c }
  | .zone i z => { m with zones := m.zones.set i (storedAs ok z) }
  | .grade p => { m with grade := storedAs ok p }
  | .aid r => { m with aid := storedAs ok r }
  | .payloadTable t => { m with payloadTable := storedAs ok t }
  | .ladder c => { m with ladder := storedAs ok c }
  | .economy e => { m with economy := storedAs ok e }
  | .duty n => { m with duty := storedAs ok n }
  | .accumulator a v => { m with accumulators := accSet m.accumulators a (storedAs ok v) }
  | .item i f => { m with items := m.items.set i (storedAs ok f) }
  | .watermark w => { m with watermark := storedAs ok w }
  | .outputPeriod n => { m with outputPeriod := storedAs ok n }

/-- A record that fails its check. -/
def isBad {α : Type} : Stored α → Bool
  | .bad => true
  | _ => false

/-- The load finds that a record fails its check (R186). -/
def failsCheck (m : Image) : RecordId → Bool
  | .nodes => isBad m.nodes
  | .geometry => isBad m.geometry
  | .solver => isBad m.solver
  | .zone i => isBad (m.zones.getD i .missing)
  | .grade => isBad m.grade
  | .aid => isBad m.aid
  | .payloadTable => isBad m.payloadTable
  | .ladder => isBad m.ladder
  | .economy => isBad m.economy
  | .duty => isBad m.duty
  | .accumulator a => isBad (accGet m.accumulators a)
  | .item i => isBad (m.items.getD i .missing)
  | .watermark => isBad m.watermark
  | .outputPeriod => isBad m.outputPeriod

/-- The content of a good record, and a default for a missing or failing one. -/
def goodOr {α : Type} (d : α) : Stored α → α
  | .good a => a
  | _ => d

/-! ## Saves (R187, R188) -/

/-- A save starts: the snapshot of the dirty records and of all accumulators, the dirty marks cleared, the save timer
restarted, SAVE_DONE owed when the key-off mark is set (R188, R189), the restart save when a RESTART waits (R191). -/
def startSave (s : State) : State :=
  { s with store :=
      { s.store with
        save := some
          { todo := (imageOrder.filter fun r => isAccumRecord r || decide (r ∈ s.store.dirty)).map (snapshot s)
            written := 0, mismatches := 0, owesDone := s.store.keyOff, isRestart := s.store.restartPending }
        dirty := [], keyOff := false, timer := some Config.savePeriod } }

/-- A save trigger (R187): it starts a save while IDLE and sets the save-again mark while SAVING, but for the restart
save (R191). -/
def triggerSave (s : State) : State :=
  match s.store.save with
  | none => startSave s
  | some v => if v.isRestart then s else { s with store := { s.store with again := true } }

/-- The dirty mark of a record set, without a trigger (R188). -/
def markOnly (r : RecordId) (s : State) : State :=
  { s with store := { s.store with dirty := imageOrder.filter fun x => decide (x = r) || decide (x ∈ s.store.dirty) } }

/-- The dirty mark of a record set, which is a save trigger (R187). -/
def markDirty (r : RecordId) (s : State) : State := triggerSave (markOnly r s)

/-! ## The time base (spec/00_scope.md 4.1; log 2) -/

/-- A timer after `ms` more milliseconds; one that has run out stands at 0 until its expiry is taken. -/
def runDown (ms : Nat) (t : Option Nat) : Option Nat := t.map fun n => n - ms

/-- The stale timer after `ms` more milliseconds (R5). -/
def runStale (ms : Nat) (t : Option StaleTimer) : Option StaleTimer :=
  t.map fun x => { x with remaining := x.remaining - ms }

/-- A demand after `ms` more milliseconds: its wait limit runs (R108), its duration only while it leads (R107). -/
def runDemand (ms : Nat) (d : Demand) : Demand :=
  { d with wait := runDown ms d.wait, duration := if d.leading then runDown ms d.duration else d.duration }

/-- `ms` milliseconds pass: every running timer runs down, and no expiry is taken (log 2). -/
def elapse (ms : Nat) (s : State) : State :=
  { s with
    intake := { s.intake with stale := runStale ms s.intake.stale }
    ladder := { s.ladder with records := s.ladder.records.map (runDemand ms)
                              idleTimer := runDown ms s.ladder.idleTimer
                              shutdownTimer := runDown ms s.ladder.shutdownTimer }
    output := { s.output with periodTimer := runDown ms s.output.periodTimer
                              cabTimer := runDown ms s.output.cabTimer }
    store := { s.store with timer := runDown ms s.store.timer } }

/-! ## Resets -/

/-- The record of the save in flight that is next to be written. -/
def nextWrite (st : Store) : Option SnapRecord :=
  match st.save with
  | some v => v.todo.head?
  | none => none

/-- The image a reset leaves (R188; log 10): records already written keep their new content, those not yet written their
old, and the record being written when the save is abandoned fails its check. -/
def abandonedImage (m : WriteMoment) (st : Store) : Image :=
  match m, nextWrite st with
  | .during, some r => putRecord false r st.image
  | .written, some r => putRecord true r st.image
  | _, _ => st.image

/-- The reset of R186: everything in flight is abandoned, every block takes its reset values and the image load begins.
The image is kept, and the commands that wait are not the part's to drop. -/
def enterLoading (m : WriteMoment) (s : State) : State := loadingState (abandonedImage m s.store) s.pending

end Sys2Proof.Machine
end

