-- ==== Sys2Proof/Machine/Ladder.lean ====
section
/-! DEFINITION. The engine demand ladder (spec/06): order, promotion, timers, ceilings and floor, target rpm, and the
meanings of the commands that reach it. -/

namespace Sys2Proof.Machine

/-! ## Order and placement (R103 to R105) -/

/-- A record of the ladder stands ahead of another (R104). -/
def standsAhead (c : LadderConfig) (a b : Demand) : Bool :=
  if a.level = b.level then
    match eightGet c.orders a.level with
    | .fifo => decide (a.stamp < b.stamp)
    | .lifo => decide (b.stamp < a.stamp)
  else decide (a.level < b.level)

/-- A record put into its place. -/
def insertDemand (c : LadderConfig) (d : Demand) : List Demand → List Demand
  | [] => [d]
  | x :: xs => if standsAhead c d x then d :: x :: xs else x :: insertDemand c d xs

/-- Records put into ladder order. -/
def sortDemands (c : LadderConfig) : List Demand → List Demand
  | [] => []
  | d :: ds => insertDemand c d (sortDemands c ds)

/-- The stamps of the records renumbered, 0 upward in order of their stamps (R103). -/
def renumber (ds : List Demand) : List Demand :=
  ds.map fun d => { d with stamp := (ds.filter fun x => decide (x.stamp < d.stamp)).length }

/-- The record of a source, when the ladder holds one. -/
def demandOf (src : Source) (ds : List Demand) : Option Demand := ds.find? fun d => decide (d.source = src)

/-- The records of every other source. -/
def withoutSource (src : Source) (ds : List Demand) : List Demand := ds.filter fun d => decide (d.source ≠ src)

/-- The records and the placement counter a new record meets: renumbered when the counter stands at its greatest value
(R103; log 16). -/
def beforePlacing (ds : List Demand) (counter : Nat) : List Demand × Nat :=
  if Config.counterMax ≤ counter then (renumber ds, ds.length) else (ds, counter)

/-- A demand placed, in the stead of the source's old record if there is one (R103, R105). -/
def placeDemand (src : Source) (origin : DemandOrigin) (rpm : Int) (duration wait : Option Nat) (L : Ladder) : Ladder :=
  let room := beforePlacing (withoutSource src L.records) L.counter
  let d : Demand :=
    { source := src, level := srcGet L.config.levels src, rpm := rpm, duration := duration, wait := wait
      expired := false, origin := origin, stamp := room.2, leading := false }
  { L with records := insertDemand L.config d room.1, counter := room.2 + 1 }

/-- A source's record withdrawn, when present (R109). -/
def withdrawDemand (src : Source) (L : Ladder) : Ladder := { L with records := withoutSource src L.records }

/-! ## Promotion (R106) -/

/-- The first-place mark taken from a record. -/
def follow (d : Demand) : Demand := { d with leading := false }

/-- R106: the first record is examined when it is new to that place and removed with its reason while it has expired;
then it leads, without a wait limit, and every other record stands still. -/
def settle : List Demand → List Demand × List Drop
  | [] => ([], [])
  | d :: ds =>
    if d.leading then (d :: ds.map follow, [])
    else if d.expired then ((settle ds).1, ⟨d, .waitExpired⟩ :: (settle ds).2)
    else if d.duration = some 0 then ((settle ds).1, ⟨d, .expired⟩ :: (settle ds).2)
    else ({ d with leading := true, wait := none } :: ds.map follow, [])

/-! ## Ceilings, floor and target (R116 to R118) -/

/-- The THERMAL ceiling (R116). -/
def thermalCeiling (L : Ladder) : Option Int :=
  match L.thermal with
  | .none => none
  | .stage1 => some L.economy.c1
  | .stage2 => some L.economy.c2

/-- The FLEET ceiling (R116). -/
def fleetCeiling (L : Ladder) : Option Int := if L.economy.fleetCap = 0 then none else some L.economy.fleetCap

/-- The SERVICE ceiling (R116). -/
def serviceCeiling (L : Ladder) : Option Int := if L.service then some L.economy.derate else none

/-- The WARMUP floor (R117). -/
def warmupFloor (L : Ladder) : Option Int := if L.warmup then some L.economy.warmFloor else none

/-- An rpm lowered to a ceiling, when that is present. -/
def lowerTo (c : Option Int) (x : Int) : Int :=
  match c with
  | some v => min v x
  | none => x

/-- An rpm raised to the floor, when that is present. -/
def raiseTo (f : Option Int) (x : Int) : Int :=
  match f with
  | some v => max v x
  | none => x

/-- Steps 2 to 4 of R118 on a base rpm. -/
def boundRpm (L : Ladder) (base : Int) : Int :=
  clampRpm (lowerTo (serviceCeiling L) (lowerTo (thermalCeiling L) (lowerTo (fleetCeiling L) (raiseTo (warmupFloor L) base))))

/-- The target rpm of R118. -/
def formTarget (L : Ladder) : Int :=
  match L.records with
  | [] => boundRpm L L.config.idle
  | d :: _ => boundRpm L d.rpm

/-- The next rpm of R118: 0 when there is no second record. -/
def formNext (L : Ladder) : Int :=
  match L.records with
  | _ :: d :: _ => boundRpm L d.rpm
  | _ => 0

/-- The ladder with its target and next rpm formed (R118). -/
def retargetLadder (L : Ladder) : Ladder := { L with target := formTarget L, next := formNext L }

/-- The ladder's group of the pending set written (R118, R162). -/
def writeTarget (s : State) : State :=
  { s with output := { s.output with pending :=
      { s.output.pending with target := s.ladder.target, next := s.ladder.next, advise := s.ladder.advise } } }

/-- The ladder replaced, its target and next rpm formed and written. -/
def retarget (L : Ladder) (s : State) : State := writeTarget { s with ladder := retargetLadder L }

/-! ## The shutdown watch (R114) and notices (R110) -/

/-- AUTO_IDLE is the active demand. -/
def autoIdleActive (L : Ladder) : Bool :=
  match L.records with
  | d :: _ => decide (d.source = .autoIdle)
  | [] => false

/-- A delay of the economy configuration in ms. -/
def secondsToMs (x : Int) : Nat := (x * 1000).toNat

/-- The shutdown timer after an event, from whether AUTO_IDLE was the active demand before it (R114). -/
def watchShutdown (before : Bool) (L : Ladder) : Ladder :=
  match before, autoIdleActive L with
  | false, true =>
    if L.economy.shutdownDelay = 0 then L
    else { L with shutdownTimer := some (secondsToMs L.economy.shutdownDelay) }
  | true, false => { L with shutdownTimer := none, advise := false }
  | _, _ => L

/-- DEMAND_DROPPED for one record, to its origin link when it has one (R110). -/
def sendDropped (s : State) (d : Drop) : State :=
  match d.demand.origin with
  | .link l => sendNotice l (.demandDropped d.demand.source d.reason d.demand.rpm s.ladder.target) s
  | .internal => s

/-- One event at the ladder: `L` is the ladder as the event changed it, `drops` what the event itself removed with a
reason. R106 is applied, the shutdown watch acts, target and next rpm are formed and written, and DEMAND_DROPPED goes
out for each record dropped, in the order removed. -/
def ladderEvent (L : Ladder) (drops : List Drop) (s : State) : State :=
  let settled := settle L.records
  let watched := watchShutdown (autoIdleActive s.ladder) { L with records := settled.1 }
  (drops ++ settled.2).foldl sendDropped (retarget watched s)

/-! ## The hand-off of a solve completion (R111 to R117) -/

/-- What the ladder receives at a solve completion (R111). -/
structure Handoff where
  lever : Bool
  travel : Bool
  operator : Bool
  phase : Phase
  coolant : Option Int
  oil : Option Int
  boost : Option BoostRequest
  deriving DecidableEq, Repr

/-- The hotter of the temperature channels marked valid (R116). -/
def hotter (a b : Option Int) : Option Int :=
  match a, b with
  | some x, some y => some (max x y)
  | some x, none => some x
  | none, y => y

/-- The THERMAL stage re-formed (R116). -/
def thermalStage (e : Economy) (old : ThermalStage) (coolant oil : Option Int) : ThermalStage :=
  match hotter coolant oil with
  | some t => if e.t2 ≤ t then .stage2 else if e.t1 ≤ t then .stage1 else .none
  | none => old

/-- The WARMUP floor's presence re-formed (R117). -/
def warmupAfter (e : Economy) (old : Bool) (coolant : Option Int) : Bool :=
  match coolant with
  | some t => decide (t < e.warmThreshold)
  | none => old

/-- Step 2 of R111: the travel flag (R112). -/
def actTravel (travel : Bool) (L : Ladder) : Ladder :=
  if travel then
    match demandOf .travel L.records with
    | none => placeDemand .travel .internal L.config.travel none none L
    | some _ => L
  else withdrawDemand .travel L

/-- The auto-idle condition (R113). -/
def autoIdleCondition (h : Handoff) : Bool := !h.lever && decide (h.phase = .idle) && !h.travel && h.operator

/-- Step 3 of R111: the auto-idle condition and the idle timer (R113). -/
def actAutoIdle (h : Handoff) (L : Ladder) : Ladder :=
  if h.lever || h.travel then { withdrawDemand .autoIdle L with idleTimer := none }
  else if autoIdleCondition h then
    if (demandOf .autoIdle L.records).isNone && L.idleTimer.isNone then
      { L with idleTimer := some (secondsToMs L.economy.idleDelay) }
    else L
  else { L with idleTimer := none }

/-- Step 4 of R111: the DIG_BOOST request (R115). -/
def actBoost (b : Option BoostRequest) (L : Ladder) : Ladder :=
  match b with
  | some .place =>
    if L.service then L
    else placeDemand .digBoost .internal L.config.boost (some (secondsToMs L.config.boostTime)) none L
  | some .withdraw => withdrawDemand .digBoost L
  | none => L

/-- Steps 1 to 4 of R111. -/
def takeHandoff (h : Handoff) (L : Ladder) : Ladder :=
  actBoost h.boost (actAutoIdle h (actTravel h.travel
    { L with thermal := thermalStage L.economy L.thermal h.coolant h.oil
             warmup := warmupAfter L.economy L.warmup h.coolant }))

/-- The ladder's hand-off of a solve completion, whole (R111). -/
def ladderHandoff (h : Handoff) (s : State) : State := ladderEvent (takeHandoff h s.ladder) [] s

/-- The SERVICE request of the schedule reaching the ladder: nothing while it is as before (R116). -/
def serviceRequest (present : Bool) (s : State) : State :=
  if s.ladder.service = present then s else retarget { s.ladder with service := present } s

/-- Sample loss at the ladder: the idle timer stops (R113) and DIG_BOOST is withdrawn (R88). -/
def ladderSampleLoss (s : State) : State :=
  ladderEvent { withdrawDemand .digBoost s.ladder with idleTimer := none } [] s

/-! ## Demand requests (R109, R119 to R122) -/

/-- A demand as an answer shows it. -/
def demandEcho (d : Demand) : DemandEcho := ⟨d.source, d.level, d.rpm, d.duration, d.wait⟩

/-- A partner's demand placed and answered OK with the record as placed. -/
def servePlace (l : Link) (r : Request) (src : Source) (rpm : Int) (duration wait : Option Nat) (s : State) : State :=
  let s1 := ladderEvent (placeDemand src (.link l) rpm duration wait s.ladder) [] s
  let shown : DemandEcho := ⟨src, srcGet s.ladder.config.levels src, rpm, duration, wait⟩
  reply l r .ok (.demand (some shown) s1.ladder.target s1.ladder.next) s1

/-- A partner's withdrawal, answered OK with the record as it stood, or NOT_FOUND (R109). -/
def serveWithdraw (l : Link) (r : Request) (src : Source) (s : State) : State :=
  match demandOf src s.ladder.records with
  | none => reply l r .notFound (.demand none s.ladder.target s.ladder.next) s
  | some d =>
    let s1 := ladderEvent (withdrawDemand src s.ladder) [] s
    reply l r .ok (.demand (some (demandEcho d)) s1.ladder.target s1.ladder.next) s1

/-- The preset of a mode in force; OFF has none (R119). -/
def modePreset (c : LadderConfig) : ModeChoice → Option Int
  | .power => some c.power
  | .standard => some c.standard
  | .economy => some c.economy
  | .lift => some c.lift
  | .off => none

/-- SET_MODE at the ladder (R119). -/
def serveSetMode (l : Link) (d : Payload) (s : State) : State :=
  match d with
  | .setMode (some m) =>
    match modePreset s.ladder.config m with
    | some rpm => servePlace l .setMode .mode rpm none none s
    | none => serveWithdraw l .setMode .mode s
  | _ => reply l .setMode .badField (.received d) s

/-- TOUCH_IDLE at the ladder (R120). -/
def serveTouchIdle (l : Link) (d : Payload) (s : State) : State :=
  match d with
  | .touchIdle (some true) => servePlace l .touchIdle .touchIdle s.ladder.config.idle none none s
  | .touchIdle (some false) => serveWithdraw l .touchIdle .touchIdle s
  | _ => reply l .touchIdle .badField (.received d) s

/-- REGEN_DEMAND at the ladder (R121). -/
def serveRegen (l : Link) (d : Payload) (s : State) : State :=
  match d with
  | .regenDemand (some .place) rpm duration wait =>
    servePlace l .regenDemand .regen (clampRpm rpm) (clampSpan 100 duration) (clampSpan 100 wait) s
  | .regenDemand (some .withdraw) _ _ _ => serveWithdraw l .regenDemand .regen s
  | _ => reply l .regenDemand .badField (.received d) s

/-- TEST_DEMAND at the ladder (R122). -/
def serveTest (l : Link) (d : Payload) (s : State) : State :=
  match d with
  | .testDemand (some .test) (some .place) rpm duration wait =>
    if duration = 0 then reply l .testDemand .badField (.received d) s
    else servePlace l .testDemand .test (clampRpm rpm) (clampSpan 1000 duration) (clampSpan 100 wait) s
  | .testDemand (some .spare) (some .place) rpm duration wait =>
    servePlace l .testDemand .spare (clampRpm rpm) (clampSpan 100 duration) (clampSpan 100 wait) s
  | .testDemand (some .test) (some .withdraw) _ _ _ => serveWithdraw l .testDemand .test s
  | .testDemand (some .spare) (some .withdraw) _ _ _ => serveWithdraw l .testDemand .spare s
  | _ => reply l .testDemand .badField (.received d) s

/-! ## Configuration requests (R123, R124) -/

/-- The ladder under a new configuration: each record takes its source's new level, and the ladder stands in the order
of R104. -/
def reconfigure (c : LadderConfig) (L : Ladder) : Ladder :=
  { L with
    config := c
    records := sortDemands c (L.records.map fun d => { d with level := srcGet c.levels d.source }) }

/-- SET_LADDER at the ladder (R123). -/
def serveSetLadder (l : Link) (d : Payload) (s : State) : State :=
  match d with
  | .ladder q =>
    match takeLadder q with
    | some c =>
      reply l .setLadder .ok (.ladder c) (markDirty .ladder (ladderEvent (reconfigure c s.ladder) [] s))
    | none => reply l .setLadder .badField (.received d) s
  | _ => reply l .setLadder .badField (.received d) s

/-- The ladder under a new economy configuration; a shutdown delay of 0 stops the watch (R114, R124). -/
def replaceEconomy (e : Economy) (L : Ladder) : Ladder :=
  if e.shutdownDelay = 0 then { L with economy := e, shutdownTimer := none, advise := false } else { L with economy := e }

/-- SET_ECONOMY at the ladder (R124). -/
def serveSetEconomy (l : Link) (d : Payload) (s : State) : State :=
  match d with
  | .economy q =>
    reply l .setEconomy .ok (.economy (takeEconomy q))
      (markDirty .economy (retarget (replaceEconomy (takeEconomy q) s.ladder) s))
  | _ => reply l .setEconomy .badField (.received d) s

/-! ## Meanings -/

/-- SET_MODE with a mode (R119). -/
def execSetMode (l : Link) (s : State) : Host.Outcome State Fault Refusal :=
  .next (takeRequest (.setMode l) l (serveSetMode l) s)

/-- SET_MODE with OFF (R119). -/
def execSetModeOff (l : Link) (s : State) : Host.Outcome State Fault Refusal :=
  .next (takeRequest (.setModeOff l) l (serveSetMode l) s)

/-- TOUCH_IDLE ON (R120). -/
def execTouchIdleOn (l : Link) (s : State) : Host.Outcome State Fault Refusal :=
  .next (takeRequest (.touchIdleOn l) l (serveTouchIdle l) s)

/-- TOUCH_IDLE OFF (R120). -/
def execTouchIdleOff (l : Link) (s : State) : Host.Outcome State Fault Refusal :=
  .next (takeRequest (.touchIdleOff l) l (serveTouchIdle l) s)

/-- REGEN_DEMAND PLACE (R121). -/
def execRegenDemandPlace (l : Link) (s : State) : Host.Outcome State Fault Refusal :=
  .next (takeRequest (.regenDemandPlace l) l (serveRegen l) s)

/-- REGEN_DEMAND WITHDRAW (R121). -/
def execRegenDemandWithdraw (l : Link) (s : State) : Host.Outcome State Fault Refusal :=
  .next (takeRequest (.regenDemandWithdraw l) l (serveRegen l) s)

/-- TEST_DEMAND PLACE (R122). -/
def execTestDemandPlace (l : Link) (s : State) : Host.Outcome State Fault Refusal :=
  .next (takeRequest (.testDemandPlace l) l (serveTest l) s)

/-- TEST_DEMAND WITHDRAW (R122). -/
def execTestDemandWithdraw (l : Link) (s : State) : Host.Outcome State Fault Refusal :=
  .next (takeRequest (.testDemandWithdraw l) l (serveTest l) s)

/-- SET_LADDER (R123). -/
def execSetLadder (l : Link) (s : State) : Host.Outcome State Fault Refusal :=
  .next (takeRequest (.setLadder l) l (serveSetLadder l) s)

/-- SET_ECONOMY (R124). -/
def execSetEconomy (l : Link) (s : State) : Host.Outcome State Fault Refusal :=
  .next (takeRequest (.setEconomy l) l (serveSetEconomy l) s)

/-- The ladder as the idle timer's expiry leaves it before R106: the timer stopped, AUTO_IDLE placed when absent
(R113). -/
def idleExpired (L : Ladder) : Ladder :=
  match demandOf .autoIdle L.records with
  | none => { placeDemand .autoIdle .internal L.config.idle none none L with idleTimer := none }
  | some _ => { L with idleTimer := none }

/-- IDLE_TIMER_EXPIRY (R113): nothing while the timer is stopped; otherwise its remaining time passes and it expires. -/
def execIdleTimerExpiry (s : State) : Host.Outcome State Fault Refusal :=
  match s.ladder.idleTimer with
  | none => .next s
  | some n => .next (ladderEvent (idleExpired (elapse n s).ladder) [] (elapse n s))

/-- SHUTDOWN_TIMER_EXPIRY (R114): nothing while the timer is stopped; otherwise its remaining time passes, it stops and
SHUTDOWN_ADVISE is set and written. -/
def execShutdownTimerExpiry (s : State) : Host.Outcome State Fault Refusal :=
  match s.ladder.shutdownTimer with
  | none => .next s
  | some n =>
    .next (retarget { (elapse n s).ladder with shutdownTimer := none, advise := true } (elapse n s))

/-- The running duration of the active demand, when it has one (R107). -/
def runningDuration (L : Ladder) : Option Nat :=
  match L.records with
  | d :: _ => if d.leading then d.duration else none
  | [] => none

/-- The active demand removed with reason EXPIRED (R107). -/
def expireActive (s : State) : State :=
  match s.ladder.records with
  | d :: rest => ladderEvent { s.ladder with records := rest } [⟨d, .expired⟩] s
  | [] => s

/-- DURATION_EXPIRY (R107): nothing while no active demand has a running duration; otherwise its remaining time passes
and the active demand is removed with reason EXPIRED. -/
def execDurationExpiry (s : State) : Host.Outcome State Fault Refusal :=
  match runningDuration s.ladder with
  | none => .next s
  | some n => .next (expireActive (elapse n s))

/-- A record whose wait limit has expired: marked, its limit absent (R108). -/
def waitExpired (src : Source) (d : Demand) : Demand :=
  if d.source = src then { d with expired := true, wait := none } else d

/-- The ms until a record's wait limit expires, when it has one. -/
def waitOf (src : Source) (L : Ladder) : Option Nat := (demandOf src L.records).bind fun d => d.wait

/-- WAIT_LIMIT_EXPIRY of a source's record (R108): nothing while it has no wait limit; otherwise its remaining time
passes and the record is marked in its place, target and next rpm as they were. -/
def execWaitLimitExpiry (src : Source) (s : State) : Host.Outcome State Fault Refusal :=
  match waitOf src s.ladder with
  | none => .next s
  | some n =>
    .next { elapse n s with
            ladder := { (elapse n s).ladder with records := (elapse n s).ladder.records.map (waitExpired src) } }

end Sys2Proof.Machine
end

