-- ==== Sys2Proof/Machine/Service.lean ====
section
/-! DEFINITION. The reminder ring and the service schedule (spec/08), and the meanings of the commands that reach
them. -/

namespace Sys2Proof.Machine

/-! ## The ring -/

/-- A reader's state. -/
def readerOf (g : Ring) : Reader → ReaderState
  | .cab => g.cab
  | .service => g.service

/-- The ring with one reader's state replaced. -/
def setReader (r : Reader) (x : ReaderState) (g : Ring) : Ring :=
  match r with
  | .cab => { g with cab := x }
  | .service => { g with service := x }

/-- The reader of a link: CAB on CL, SERVICE on SL (R156); no request of a reader is permitted on ML. -/
def readerOfLink : Link → Reader
  | .cl => .cab
  | _ => .service

/-- The link of a reader (spec/08 section 8.5). -/
def linkOfReader : Reader → Link
  | .cab => .cl
  | .service => .sl

/-- The held count: the larger of the two unread counts (R153). -/
def heldCount (g : Ring) : Nat := max g.cab.unread g.service.unread

/-- The position `k` places on from `p`. -/
def ringPlus (p k : Nat) : Nat := (p + k) % Config.ringSize

/-- How far position `p` lies on from `q`: (p - q) mod 32. -/
def ringDistance (p q : Nat) : Nat := (p + Config.ringSize - q % Config.ringSize) % Config.ringSize

/-- The positions that were held at a count `n` and are not held at a count `m`, oldest first (R155). -/
def releasedPositions (put n m : Nat) : List Nat :=
  (List.range (n - m)).map fun k => ringDistance (put + k) n

/-- An item's last_notice_pos names a position. -/
def namesPosition (p : Nat) (i : Item) : Bool := decide (i.lastNotice = some p)

/-- An item after a position is released: its last_notice_pos becomes absent when it names that position, and a RETIRING
item becomes EMPTY (R150, R155). -/
def releaseItem (p : Nat) (i : Item) : Item :=
  if namesPosition p i then (if i.state = .retiring then emptyItem else { i with lastNotice := none }) else i

/-- The numbers of the items whose retire a released position completes (R150). -/
def retiredBy (p : Nat) (items : List Item) : List Nat :=
  (List.range items.length).filter fun k =>
    let i := items.getD k emptyItem
    namesPosition p i && decide (i.state = .retiring)

/-- RETIRE_DONE on SL (R150). -/
def sendRetired (s : State) (k : Nat) : State := sendNotice .sl (.retireDone k) s

/-- A position released (R155), with the retire it completes (R150). -/
def releasePosition (s : State) (p : Nat) : State :=
  (retiredBy p s.items).foldl sendRetired
    { s with ring := { s.ring with slots := s.ring.slots.set p none }, items := s.items.map (releaseItem p) }

/-- The positions no longer held released, from the held count before (R155). -/
def releaseFrom (before : Nat) (s : State) : State :=
  (releasedPositions s.ring.put before (heldCount s.ring)).foldl releasePosition s

/-- The CAB reader's state after its oldest notice is dropped (R154). -/
def cabDropped (r : ReaderState) : ReaderState :=
  { r with get := ringPlus r.get 1, unread := r.unread - 1, lost := true }

/-- The cab's oldest notice dropped (step 1 of R154). -/
def dropCab (s : State) : State :=
  releaseFrom (heldCount s.ring) { s with ring := { s.ring with cab := cabDropped s.ring.cab } }

/-- A reader that gains an unread notice. -/
def oneMore (r : ReaderState) : ReaderState := { r with unread := r.unread + 1 }

/-- An item whose newest notice stands at a position. -/
def pointAt (p : Nat) (i : Item) : Item := { i with lastNotice := some p }

/-- A list with the entry of one number changed, if it has that entry. -/
def changeAt {α : Type} (xs : List α) (k : Nat) (f : α → α) : List α := xs.modify k f

/-- Steps 2 to 4 of R154: the notice written at the put index and its position given to the item. -/
def putNotice (n : Notice) (s : State) : State :=
  { s with
    ring := { s.ring with
      slots := s.ring.slots.set s.ring.put (some n), put := ringPlus s.ring.put 1
      cab := oneMore s.ring.cab, service := oneMore s.ring.service }
    items := changeAt s.items n.item (pointAt s.ring.put) }

/-- The watermark test of R160 for one reader. -/
def watermarkTest (r : Reader) (s : State) : State :=
  let x := readerOf s.ring r
  if x.watermark ≠ 0 ∧ x.armed = true ∧ x.watermark ≤ x.unread then
    sendNotice (linkOfReader r) (.ringWatermark r x.unread x.lost)
      { s with ring := setReader r { x with armed := false } s.ring }
  else s

/-- The re-arm test of R160. -/
def rearm (x : ReaderState) : ReaderState :=
  if x.armed = false ∧ x.unread < x.watermark then { x with armed := true } else x

/-- A notice handed to the ring (R154): lost to both readers when the service reader is full, else written, the cab's
oldest first dropped when the cab reader is full. -/
def produceNotice (n : Notice) (s : State) : State :=
  if Config.ringSize ≤ s.ring.service.unread then
    { s with ring := { s.ring with service := { s.ring.service with lost := true } } }
  else if Config.ringSize ≤ s.ring.cab.unread then
    watermarkTest .service (watermarkTest .cab (putNotice n (dropCab s)))
  else watermarkTest .service (watermarkTest .cab (putNotice n s))

/-! ## Items (R142 to R144) -/

/-- The progress of an item at a basis value: 0 when that lies below the baseline (R142). -/
def progress (f : ItemFields) (basis : Nat) : Nat := basis - f.baseline

/-- The state that a progress selects (table of R142). -/
def stateAt (f : ItemFields) (p : Nat) : ItemState :=
  if p < f.interval - f.warnAhead then .dormant
  else if p < f.interval then .warn
  else if p < f.interval + f.overdueAfter then .due
  else .overdue

/-- The order DORMANT, WARN, DUE, OVERDUE; none for the states that do not follow progress (R143). -/
def stateRank : ItemState → Option Nat
  | .dormant => some 0
  | .warn => some 1
  | .due => some 2
  | .overdue => some 3
  | _ => none

/-- DUE or OVERDUE. -/
def isDue (t : ItemState) : Bool :=
  match t with
  | .due => true
  | .overdue => true
  | _ => false

/-- The first next_repeat after a rise at a basis value, or after a load (R141, R143). -/
def firstRepeat (f : ItemFields) (basis : Nat) : Option Nat :=
  if f.repeatEvery = 0 ∨ Config.basisMax < basis + f.repeatEvery then none else some (basis + f.repeatEvery)

/-- next_repeat advanced past a basis value it has reached (R144). -/
def advanceRepeat (f : ItemFields) (r basis : Nat) : Option Nat :=
  let n := r + f.repeatEvery * ((basis - r) / f.repeatEvery + 1)
  if f.repeatEvery = 0 ∨ Config.basisMax < n then none else some n

/-- An item after a rise into a state (R143). -/
def risen (f : ItemFields) (t : ItemState) (basis : Nat) (i : Item) : Item :=
  if isDue t then
    { i with state := t, fields := some { f with acknowledged := false }, nextRepeat := firstRepeat f basis }
  else { i with state := t }

/-- A rise of item `k`: its new state, its RISE notice, and its dirty mark when it loses an acknowledgment (R143,
R152). -/
def riseItem (k : Nat) (f : ItemFields) (t : ItemState) (basis : Nat) (s : State) : State :=
  let s1 := produceNotice ⟨k, .rise, t, basis, f.severity⟩ { s with items := changeAt s.items k (risen f t basis) }
  if isDue t && f.acknowledged then markDirty (.item k) s1 else s1

/-- The repeat test of R144 on item `k`. -/
def repeatItem (k : Nat) (i : Item) (f : ItemFields) (basis : Nat) (s : State) : State :=
  match i.nextRepeat with
  | some r =>
    if isDue i.state ∧ f.acknowledged = false ∧ r ≤ basis then
      produceNotice ⟨k, .repeated, i.state, basis, f.severity⟩
        { s with items := changeAt s.items k fun j => { j with nextRepeat := advanceRepeat f r basis } }
    else s
  | none => s

/-- Item `k` re-examined at a new basis value of an accumulator (R143). -/
def reexamineItem (a : Accum) (basis : Nat) (s : State) (k : Nat) : State :=
  let i := s.items.getD k emptyItem
  match i.fields, stateRank i.state with
  | some f, some old =>
    if f.basis = a then
      match stateRank (stateAt f (progress f basis)) with
      | some new =>
        if old < new then riseItem k f (stateAt f (progress f basis)) basis s else repeatItem k i f basis s
      | none => s
    else s
  | _, _ => s

/-- Every item on an accumulator re-examined, in ascending item number (R143). -/
def reexamine (a : Accum) (basis : Nat) (s : State) : State :=
  (List.range Config.itemCount).foldl (reexamineItem a basis) s

/-- An item that asks for the SERVICE ceiling: CRITICAL and OVERDUE or FAULTED (R145). -/
def asksService (i : Item) : Bool :=
  match i.state, i.fields with
  | .overdue, some f => decide (f.severity = .critical)
  | .faulted, some f => decide (f.severity = .critical)
  | .faulted, none => true
  | _, _ => false

/-- The SERVICE request of the schedule (R145). -/
def serviceWanted (items : List Item) : Bool := items.any asksService

/-- The schedule's SERVICE request passed to the ladder (R145, R116). -/
def syncService (s : State) : State := serviceRequest (serviceWanted s.items) s

/-- The present basis value of an accumulator, as last handed on (R134). -/
def basisNow (s : State) (a : Accum) : Nat := accGet s.duty.handed a

/-! ## Item requests (R146 to R149) -/

/-- Item `k` as it stands. -/
def itemAt (s : State) (k : Nat) : Item := s.items.getD k emptyItem

/-- The answer to an item request: the item as it stands (spec/08 section 8.4). -/
def replyItem (l : Link) (r : Request) (result : Result) (k : Nat) (s : State) : State :=
  reply l r result (.item k (itemAt s k)) s

/-- ACK_ITEM on an item in WARN, DUE or OVERDUE (R146). -/
def acknowledged (f : ItemFields) (i : Item) : Item :=
  { i with fields := some { f with acknowledged := true }, nextRepeat := none }

/-- ACK_ITEM at the schedule (R146). -/
def serveAck (l : Link) (d : Payload) (s : State) : State :=
  match d with
  | .item k =>
    if Config.itemCount ≤ k then reply l .ackItem .badField (.received d) s
    else
      match (itemAt s k).state, (itemAt s k).fields with
      | .warn, some f => serveAckOn k f
      | .due, some f => serveAckOn k f
      | .overdue, some f => serveAckOn k f
      | _, _ => replyItem l .ackItem .wrongState k s
  | _ => reply l .ackItem .badField (.received d) s
where
  /-- The acknowledgment itself, with the dirty mark when it changes acknowledged. -/
  serveAckOn (k : Nat) (f : ItemFields) : State :=
    if f.acknowledged then replyItem l .ackItem .ok k s
    else replyItem l .ackItem .ok k (markDirty (.item k) { s with items := changeAt s.items k (acknowledged f) })

/-- An item after SERVICE_DONE (R147). -/
def serviced (f : ItemFields) (basis : Nat) (i : Item) : Item :=
  { i with state := .dormant, fields := some { f with baseline := basis, acknowledged := false }, nextRepeat := none }

/-- SERVICE_DONE acts on an item in this state: DORMANT, WARN, DUE, OVERDUE, or FAULTED with its fields known (R147). -/
def serviceable : ItemState → Bool
  | .dormant => true
  | .warn => true
  | .due => true
  | .overdue => true
  | .faulted => true
  | _ => false

/-- SERVICE_DONE at the schedule (R147). -/
def serveServiceDone (l : Link) (d : Payload) (s : State) : State :=
  match d with
  | .item k =>
    if Config.itemCount ≤ k then reply l .serviceDone .badField (.received d) s
    else
      match (itemAt s k).fields with
      | some f =>
        if serviceable (itemAt s k).state then
          let basis := basisNow s f.basis
          let s1 := syncService { s with items := changeAt s.items k (serviced f basis) }
          replyItem l .serviceDone .ok k
            (markDirty (.item k) (produceNotice ⟨k, .reset, .dormant, basis, f.severity⟩ s1))
        else replyItem l .serviceDone .wrongState k s
      | none => replyItem l .serviceDone .wrongState k s
  | _ => reply l .serviceDone .badField (.received d) s

/-- An item newly defined at a basis value (R148). -/
def definedItem (f : ItemFields) (basis : Nat) : Item :=
  { state := stateAt f 0, fields := some { f with baseline := basis }, nextRepeat := none, lastNotice := none }

/-- ITEM_DEFINE at the schedule (R148). -/
def serveItemDefine (l : Link) (d : Payload) (s : State) : State :=
  match d with
  | .itemDefine k (some a) (some v) interval warnAhead overdueAfter repeatEvery =>
    if Config.itemCount ≤ k then reply l .itemDefine .badField (.received d) s
    else if (itemAt s k).state = .empty then
      let f := takeItem a v interval warnAhead overdueAfter repeatEvery
      replyItem l .itemDefine .ok k
        (markDirty (.item k) { s with items := changeAt s.items k fun _ => definedItem f (basisNow s a) })
    else replyItem l .itemDefine .wrongState k s
  | _ => reply l .itemDefine .badField (.received d) s

/-- A RETIRING item keeps its last_notice_pos alone (R149). -/
def retiringItem (i : Item) : Item := { state := .retiring, fields := none, nextRepeat := none, lastNotice := i.lastNotice }

/-- ITEM_RETIRE at the schedule (R149). -/
def serveItemRetire (l : Link) (d : Payload) (s : State) : State :=
  match d with
  | .item k =>
    if Config.itemCount ≤ k then reply l .itemRetire .badField (.received d) s
    else
      match (itemAt s k).state, (itemAt s k).lastNotice with
      | .empty, _ => replyItem l .itemRetire .wrongState k s
      | .retiring, _ => replyItem l .itemRetire .wrongState k s
      | _, none =>
        sendRetired
          (replyItem l .itemRetire .ok k
            (markDirty (.item k) (syncService { s with items := changeAt s.items k fun _ => emptyItem }))) k
      | _, some _ =>
        replyItem l .itemRetire .ok k
          (markDirty (.item k) (syncService { s with items := changeAt s.items k retiringItem }))
  | _ => reply l .itemRetire .badField (.received d) s

/-! ## Ring requests (R156, R157, R159) -/

/-- The notices a RING_READ returns: up to four from the get index onward (R156). -/
def unreadNotices (g : Ring) (x : ReaderState) : List PlacedNotice :=
  (List.range (min 4 x.unread)).filterMap fun k =>
    (g.slots.getD (ringPlus x.get k) none).map fun n => ⟨ringPlus x.get k, n⟩

/-- RING_READ at the ring (R156). -/
def serveRingRead (l : Link) (_ : Payload) (s : State) : State :=
  let x := readerOf s.ring (readerOfLink l)
  reply l .ringRead .ok (.ringRead x.unread x.lost (unreadNotices s.ring x)) s

/-- A reader's state after it has passed a position (R157). -/
def advanced (x : ReaderState) (p : Nat) : ReaderState :=
  { x with get := ringPlus p 1, unread := x.unread - (ringDistance p x.get + 1) }

/-- RING_ADVANCE within the span: the cursor moved, positions released, the re-arm test made (R157). -/
def advanceReader (r : Reader) (p : Nat) (s : State) : State :=
  let s1 := releaseFrom (heldCount s.ring) { s with ring := setReader r (advanced (readerOf s.ring r) p) s.ring }
  { s1 with ring := setReader r (rearm (readerOf s1.ring r)) s1.ring }

/-- RING_ADVANCE at the ring (R157). -/
def serveRingAdvance (l : Link) (d : Payload) (s : State) : State :=
  match d with
  | .ringAdvance p =>
    let x := readerOf s.ring (readerOfLink l)
    if p < Config.ringSize ∧ ringDistance p x.get < x.unread then
      let s1 := advanceReader (readerOfLink l) p s
      let y := readerOf s1.ring (readerOfLink l)
      reply l .ringAdvance .ok (.ringAdvance p (ringDistance p x.get + 1) y.get y.unread) s1
    else reply l .ringAdvance .badField (.received d) s
  | _ => reply l .ringAdvance .badField (.received d) s

/-- A reader's state after RING_CLEAR_LOST: the flag cleared, and a new watermark with its arming unless KEEP (R159). -/
def clearedLost (w : Option Nat) (x : ReaderState) : ReaderState :=
  match w with
  | none => { x with lost := false }
  | some v => { x with lost := false, watermark := min 32 v, armed := decide (x.unread < min 32 v) }

/-- RING_CLEAR_LOST at the ring (R159). -/
def serveRingClearLost (l : Link) (d : Payload) (s : State) : State :=
  match d with
  | .ringClearLost w =>
    let x := readerOf s.ring (readerOfLink l)
    let y := clearedLost w x
    let s1 := { s with ring := setReader (readerOfLink l) y s.ring }
    reply l .ringClearLost .ok (.ringLost x.lost x.unread y.watermark)
      (if w.isSome then markDirty .watermark s1 else s1)
  | _ => reply l .ringClearLost .badField (.received d) s

/-! ## Meanings -/

/-- ACK_ITEM (R146). -/
def execAckItem (l : Link) (s : State) : Host.Outcome State Fault Refusal :=
  .next (takeRequest (.ackItem l) l (serveAck l) s)

/-- ITEM_DEFINE (R148). -/
def execItemDefine (l : Link) (s : State) : Host.Outcome State Fault Refusal :=
  .next (takeRequest (.itemDefine l) l (serveItemDefine l) s)

/-- SERVICE_DONE (R147). -/
def execServiceDone (l : Link) (s : State) : Host.Outcome State Fault Refusal :=
  .next (takeRequest (.serviceDone l) l (serveServiceDone l) s)

/-- ITEM_RETIRE (R149). -/
def execItemRetire (l : Link) (s : State) : Host.Outcome State Fault Refusal :=
  .next (takeRequest (.itemRetire l) l (serveItemRetire l) s)

/-- RING_READ (R156). -/
def execRingRead (l : Link) (s : State) : Host.Outcome State Fault Refusal :=
  .next (takeRequest (.ringRead l) l (serveRingRead l) s)

/-- RING_ADVANCE (R157). -/
def execRingAdvance (l : Link) (s : State) : Host.Outcome State Fault Refusal :=
  .next (takeRequest (.ringAdvance l) l (serveRingAdvance l) s)

/-- RING_CLEAR_LOST (R159). -/
def execRingClearLost (l : Link) (s : State) : Host.Outcome State Fault Refusal :=
  .next (takeRequest (.ringClearLost l) l (serveRingClearLost l) s)

end Sys2Proof.Machine
end

