-- ==== Sys2Proof/Machine/Duty.lean ====
section
/-! DEFINITION. The duty accumulators (spec/07): integration at a solve completion, basis values and their hand-off,
and the meanings of ACCUM_SET and ACCUM_READ. -/

namespace Sys2Proof.Machine

/-! ## Integration (R127 to R133) -/

/-- What the accumulator block receives at a solve completion (R127). -/
structure DutyHandoff where
  interval : Nat
  engineValid : Bool
  engine : Int
  fuelValid : Bool
  fuel : Int
  slewChange : Option Int
  step : Bool
  completed : Option (Option Int)
  deriving DecidableEq, Repr

/-- An accumulator after `units` more of it: at its greatest value it stays there (R133). -/
def raiseValue (a : Accum) (units : Nat) (v : AccumValue) : AccumValue :=
  if accumMax a ≤ v.value then v
  else if accumMax a < v.value + units then { v with value := accumMax a }
  else { v with value := v.value + units }

/-- A remainder of an accumulator after an addition of `added` that carries `units` into its value: held at 0 at the
greatest value (R133; log 15). An addition of nothing carries nothing past it. -/
def heldRest (a : Accum) (added units : Nat) (v : AccumValue) (rest : Nat) : Nat :=
  if 0 < added ∧ (accumMax a ≤ v.value ∨ accumMax a < v.value + units) then 0 else rest

/-- The engine is running (R128). -/
def engineRunning (h : DutyHandoff) : Bool := !h.engineValid || decide (500 ≤ h.engine)

/-- ENGINE_TIME's addition (R128). -/
def addEngineTime (h : DutyHandoff) (d : Duty) : Duty :=
  if engineRunning h then
    let total := d.engineMs + h.interval
    { d with values := accSet d.values .engineTime (raiseValue .engineTime (total / 1000) (accGet d.values .engineTime))
             engineMs := heldRest .engineTime h.interval (total / 1000) (accGet d.values .engineTime) (total % 1000) }
  else d

/-- The weight of LOAD_TIME (table of R129). -/
def loadWeight (h : DutyHandoff) (rated : Nat) : Nat :=
  if h.fuelValid = false then 8
  else if 100 * h.fuel < 25 * rated then 2
  else if 100 * h.fuel < 50 * rated then 4
  else if 100 * h.fuel < 75 * rated then 5
  else if 100 * h.fuel < 95 * rated then 6
  else 8

/-- LOAD_TIME's addition (R129). -/
def addLoadTime (h : DutyHandoff) (d : Duty) : Duty :=
  if engineRunning h then
    let added := h.interval * loadWeight h d.ratedFuel
    let quarter := d.loadQuarter + added
    let total := d.loadMs + quarter / 4
    { d with values := accSet d.values .loadTime (raiseValue .loadTime (total / 1000) (accGet d.values .loadTime))
             loadMs := heldRest .loadTime added (total / 1000) (accGet d.values .loadTime) (total % 1000)
             loadQuarter := heldRest .loadTime added (total / 1000) (accGet d.values .loadTime) (quarter % 4) }
  else d

/-- FUEL's addition (R130). -/
def addFuel (h : DutyHandoff) (d : Duty) : Duty :=
  if h.fuelValid then
    let added := h.fuel.toNat * h.interval
    let total := added + d.fuelRest
    { d with values := accSet d.values .fuel (raiseValue .fuel (total / 36000) (accGet d.values .fuel))
             fuelRest := heldRest .fuel added (total / 36000) (accGet d.values .fuel) (total % 36000) }
  else d

/-- SLEW's addition (R131): nothing in a restart solve or in a solve that raised STEP. -/
def addSlew (h : DutyHandoff) (d : Duty) : Duty :=
  match h.slewChange with
  | some c =>
    if h.step then d
    else { d with values := accSet d.values .slew (raiseValue .slew (magnitude c).toNat (accGet d.values .slew)) }
  | none => d

/-- TONNES's addition of a present payload in kg; a payload of 0 leaves TONNES and its remainder as they were (R132). -/
def addTonnes (kg : Nat) (d : Duty) : Duty :=
  if kg = 0 then d
  else
    let total := d.tonnesKg + kg
    { d with values := accSet d.values .tonnes (raiseValue .tonnes (total / 1000) (accGet d.values .tonnes))
             tonnesKg := heldRest .tonnes kg (total / 1000) (accGet d.values .tonnes) (total % 1000) }

/-- CYCLES rises by one. -/
def addCycle (d : Duty) : Duty :=
  { d with values := accSet d.values .cycles (raiseValue .cycles 1 (accGet d.values .cycles)) }

/-- The additions of a completed cycle (R132). -/
def addCompleted (c : Option (Option Int)) (d : Duty) : Duty :=
  match c with
  | none => d
  | some none => addCycle d
  | some (some kg) => addTonnes kg.toNat (addCycle d)

/-- A restart solve carries no slew change and adds nothing in step 1 (R127). -/
def integrateSample (h : DutyHandoff) (d : Duty) : Duty :=
  if h.slewChange.isNone then d else addSlew h (addFuel h (addLoadTime h (addEngineTime h d)))

/-- Steps 1 and 2 of R127. -/
def integrate (h : DutyHandoff) (d : Duty) : Duty := addCompleted h.completed (integrateSample h d)

/-! ## Basis values (R134) -/

/-- Units per item unit (table of spec/07 section 7.1). -/
def unitsPer : Accum → Nat
  | .engineTime => 360
  | .loadTime => 360
  | .fuel => 10000
  | .slew => 65536
  | .cycles => 10
  | .tonnes => 1

/-- The basis value an accumulator has now (R134). -/
def basisOf (d : Duty) (a : Accum) : Nat := (accGet d.values a).value / unitsPer a

/-- A basis value recorded as handed on. -/
def recordHanded (a : Accum) (basis : Nat) (s : State) : State :=
  { s with duty := { s.duty with handed := accSet s.duty.handed a basis } }

/-- One accumulator's basis value compared with the one last handed on, and handed to the schedule when it differs
(R134). -/
def handOnBasis (s : State) (a : Accum) : State :=
  if basisOf s.duty a = basisNow s a then s
  else reexamine a (basisOf s.duty a) (recordHanded a (basisOf s.duty a) s)

/-- Every changed basis value handed on, in accumulator order (R134). -/
def handOnAll (s : State) : State := allAccums.foldl handOnBasis s

/-- The block's hand-off of a solve completion whole (R127), with the schedule's SERVICE request after it (R145); no
expiry of the period timer falls between that request's write of the pending set and the next (log 11). -/
def dutyHandoff (h : DutyHandoff) (s : State) : State :=
  syncService (handOnAll { s with duty := integrate h s.duty })

/-! ## Requests (R136 to R138) -/

/-- An accumulator set by ACCUM_SET: its LOST mark cleared, its remainders kept (R136). -/
def accumSetTo (a : Accum) (v : Nat) (d : Duty) : Duty := { d with values := accSet d.values a ⟨v, false⟩ }

/-- ACCUM_SET at the accumulator block (R136, R137). Its hand-off's items trigger by their dirty marks first, and
ACCUM_SET's own save trigger comes after them (DESIGN CHOICE, log 14). -/
def serveAccumSet (l : Link) (d : Payload) (s : State) : State :=
  match d with
  | .accumSet (some (.accum a)) value =>
    let v := min (accumMax a) value
    if v < (accGet s.duty.values a).value then
      reply l .accumSet .badField (.accumSet a v (accGet s.duty.values a)) s
    else
      reply l .accumSet .ok (.accumSet a v ⟨v, false⟩)
        (triggerSave (syncService (handOnBasis { s with duty := accumSetTo a v s.duty } a)))
  | .accumSet (some .ratedFuel) value =>
    let v := max 1 (min 10000 value)
    reply l .accumSet .ok (.ratedFuel v) (markDirty .duty { s with duty := { s.duty with ratedFuel := v } })
  | _ => reply l .accumSet .badField (.received d) s

/-- The presence mask (R138). -/
def presenceMask (d : Duty) : Six Bool := sixAccums fun a => decide (0 < (accGet d.values a).value)

/-- The LOST marks (R138). -/
def lostMask (d : Duty) : Six Bool := sixAccums fun a => (accGet d.values a).lost

/-- The values above 0, in accumulator order (R138). -/
def presentValues (d : Duty) : List Nat :=
  (allAccums.map fun a => (accGet d.values a).value).filter fun v => decide (0 < v)

/-- ACCUM_READ at the accumulator block (R138). -/
def serveAccumRead (l : Link) (_ : Payload) (s : State) : State :=
  reply l .accumRead .ok
    (.accumRead (presenceMask s.duty) (lostMask s.duty) s.duty.ratedFuel (presentValues s.duty)) s

/-! ## Meanings -/

/-- ACCUM_READ (R138). -/
def execAccumRead (l : Link) (s : State) : Host.Outcome State Fault Refusal :=
  .next (takeRequest (.accumRead l) l (serveAccumRead l) s)

/-- ACCUM_SET of an accumulator, and of a target code that is none of the seven (R136; log 17). -/
def execAccumSet (l : Link) (s : State) : Host.Outcome State Fault Refusal :=
  .next (takeRequest (.accumSet l) l (serveAccumSet l) s)

/-- ACCUM_SET RATED_FUEL (R137). -/
def execAccumSetRatedFuel (l : Link) (s : State) : Host.Outcome State Fault Refusal :=
  .next (takeRequest (.accumSetRatedFuel l) l (serveAccumSet l) s)

end Sys2Proof.Machine
end

