-- ==== Sys2Proof/Machine/Envelope.lean ====
section
/-! DEFINITION. The envelope: what an entry contributes in an evaluation (spec/04), stage EVALUATE, the rule of an
unusable pose, the edits of the table, the grade plane and the geometry (spec/03, R36), and the meanings of
STAGE_EVALUATE, ZONE_EDIT, SET_GRADE and SET_GEOMETRY. -/

namespace Sys2Proof.Machine

/-! ## Entries 0 to 32 as an evaluation sees them (R41, R42, R54) -/

/-- An entry as it takes part in an evaluation: not at all, by its fields, or as FAULTED (R41). -/
inductive EntryView
  | idle
  | active (b : ZoneBody)
  | faulted
  deriving DecidableEq, Repr

/-- A numbered entry's part in an evaluation. -/
def zoneView : Zone → EntryView
  | .empty => .idle
  | .active _ b => .active b
  | .suspended _ _ => .idle
  | .faulted => .faulted

/-- Entry 32 from the grade plane and its limit (table of R54). -/
def planeView (p : GradePlane) (limit : Option Int) : EntryView :=
  match p with
  | .absent => .idle
  | .present _ b =>
    if b.hold then
      .active { kind := .floor, start := 0, stop := 0, full := true, limit := limit.getD 0, margin := b.margin }
    else .idle
  | .faulted => .faulted

/-- Entry `n` of the table, 0 to 32. -/
def entryView (t : EnvTable) (n : Nat) : EntryView :=
  if n = Config.zoneCount then planeView t.plane t.floorLimit else zoneView (t.zones.getD n .empty)

/-- The numbers of all entries, 0 to 32. -/
def entryNumbers : List Nat := List.range (Config.zoneCount + 1)

/-- The actuators a kind constrains (R42). -/
def kindConstrains : ZoneKind → Actuator → Bool
  | .ceiling, .boomUp => true
  | .ceiling, .armOut => true
  | .floor, .boomDown => true
  | .floor, .armIn => true
  | .reachWall, .armOut => true
  | .reachWall, .boomDown => true
  | .sectorStop, .slewCcw => true
  | .sectorStop, .slewCw => true
  | _, _ => false

/-- A FAULTED entry constrains all six actuators, but entry 32 only those of a FLOOR (R42). -/
def faultConstrains (n : Nat) (a : Actuator) : Bool :=
  if n = Config.zoneCount then kindConstrains .floor a else true

/-- Entry `n` is ACTIVE or FAULTED and constrains the actuator (R42). -/
def constrains (t : EnvTable) (n : Nat) (a : Actuator) : Bool :=
  match entryView t n with
  | .idle => false
  | .active b => kindConstrains b.kind a
  | .faulted => faultConstrains n a

/-! ## Sector and distances (R40, R61, R63) -/

/-- ψ lies inside a zone's sector (R40). -/
def insideSector (b : ZoneBody) (psi : Int) : Bool := b.full || decide (circle (psi - b.start) < sectorWidth b)

/-- The CCW approach distance (R63). -/
def approachCcw (b : ZoneBody) (psi : Int) : Int := circle (b.start - psi)

/-- The CW approach distance (R63). -/
def approachCw (b : ZoneBody) (psi : Int) : Int := circle (psi - b.stop)

/-- The CCW exit distance (R63). -/
def exitCcw (b : ZoneBody) (psi : Int) : Int := circle (b.stop - psi)

/-- The CW exit distance (R63). -/
def exitCw (b : ZoneBody) (psi : Int) : Int := circle (psi - b.start) + 1

/-- The greatest of the three heights. -/
def topHeight (p : Points) : Int := max p.p1.z (max p.p2.z p.p3.z)

/-- The greatest of the three reaches. -/
def farReach (p : Points) : Int := max p.p1.r (max p.p2.r p.p3.r)

/-- The distance of a CEILING, FLOOR or REACH_WALL (table of R61); a SECTOR_STOP has none. -/
def limitDistance (b : ZoneBody) (p : Points) : Int :=
  match b.kind with
  | .ceiling => b.limit - topHeight p
  | .floor => p.p3.z - b.limit
  | .reachWall => b.limit - farReach p
  | .sectorStop => 0

/-! ## Scales (R62, R64) -/

/-- The in-sector scale (R62). -/
def marginScale (distance margin : Int) : Int :=
  if 0 < margin then clamp 0 1000 (1000 * distance / margin) else if 0 < distance then 1000 else 0

/-- A slew allowance with what the late-braking test reads of it (R64, R75). -/
structure Allowance where
  scale : Int
  omegaMax : Int
  distance : Int
  deriving DecidableEq, Repr

/-- The effective distance (step 1 of R64). -/
def effectiveDistance (d guard : Int) : Int := if guard < d then d - guard else 0

/-- The fastest slew that can still stop (steps 2 and 3 of R64). -/
def slewMax (d guard alpha : Int) : Int := isqrt (2 * alpha * effectiveDistance d guard).toNat

/-- The slew allowance (R64). -/
def slewAllowance (d guard alpha rated : Int) : Allowance :=
  { scale := clamp 0 1000 (1000 * slewMax d guard alpha / rated), omegaMax := slewMax d guard alpha, distance := d }

/-! ## Contributions (R62, R65 to R68) -/

/-- What one evaluation reads beside the table (section 4.1). -/
structure EvalInput where
  points : Points
  psi : Int
  omega : Int
  alpha : Int
  geometry : Geometry
  seq : Nat
  deriving DecidableEq, Repr

/-- The allowances one entry forms toward each direction, when it does (R65, R67). -/
structure Approaches where
  ccw : Option Allowance
  cw : Option Allowance
  deriving DecidableEq, Repr

/-- No allowance formed. -/
def noApproach : Approaches := ⟨none, none⟩

/-- The allowances a SECTOR_STOP forms with ψ outside its sector (R65). -/
def stopApproaches (i : EvalInput) (b : ZoneBody) : Approaches :=
  if insideSector b i.psi then noApproach
  else
    { ccw := some (slewAllowance (approachCcw b i.psi) b.margin i.alpha i.geometry.ratedSlew)
      cw := some (slewAllowance (approachCw b i.psi) b.margin i.alpha i.geometry.ratedSlew) }

/-- The entry guard's allowance in a facing direction, from the entry's distance D (R67). -/
def guardAllowance (i : EvalInput) (distance d : Int) : Allowance :=
  if distance < 0 then { scale := 0, omegaMax := 0, distance := d }
  else slewAllowance d i.geometry.slewGuard i.alpha i.geometry.ratedSlew

/-- The allowances the entry guard forms (R67). -/
def guardApproaches (i : EvalInput) (b : ZoneBody) : Approaches :=
  if insideSector b i.psi ∨ b.margin ≤ limitDistance b i.points then noApproach
  else
    { ccw := if approachCcw b i.psi ≤ approachCw b i.psi then
        some (guardAllowance i (limitDistance b i.points) (approachCcw b i.psi)) else none
      cw := if approachCw b i.psi ≤ approachCcw b i.psi then
        some (guardAllowance i (limitDistance b i.points) (approachCw b i.psi)) else none }

/-- The allowances an ACTIVE entry forms. -/
def approaches (i : EvalInput) (b : ZoneBody) : Approaches :=
  match b.kind with
  | .sectorStop => stopApproaches i b
  | _ => guardApproaches i b

/-- The escape scales inside a stop sector (R66). -/
def escapeScale (i : EvalInput) (b : ZoneBody) (a : Actuator) : Option Int :=
  match a with
  | .slewCcw =>
    if b.full = false ∧ exitCcw b i.psi ≤ exitCw b i.psi then some i.geometry.escape else some 0
  | .slewCw =>
    if b.full = false ∧ exitCw b i.psi ≤ exitCcw b i.psi then some i.geometry.escape else some 0
  | _ => none

/-- The contribution of a slew allowance to its actuator. -/
def approachScale (x : Approaches) (a : Actuator) : Option Int :=
  match a with
  | .slewCcw => x.ccw.map fun y => y.scale
  | .slewCw => x.cw.map fun y => y.scale
  | _ => none

/-- The contribution of an ACTIVE entry to an actuator, absent where it makes none. -/
def activeContribution (i : EvalInput) (b : ZoneBody) (a : Actuator) : Option Int :=
  if insideSector b i.psi then
    match b.kind with
    | .sectorStop => escapeScale i b a
    | _ => if kindConstrains b.kind a then some (marginScale (limitDistance b i.points) b.margin) else none
  else approachScale (approaches i b) a

/-- The contribution of entry `n` to an actuator (section 4.8). -/
def contribution (i : EvalInput) (t : EnvTable) (n : Nat) (a : Actuator) : Option Int :=
  match entryView t n with
  | .idle => none
  | .active b => activeContribution i b a
  | .faulted => if faultConstrains n a then some (actGet i.geometry.fallback a) else none

/-! ## Combining (R71) -/

/-- The least contribution so far with its entry, met with the next entry's. -/
def lesser (best : Option (Int × Nat)) (n : Nat) (c : Option Int) : Option (Int × Nat) :=
  match best, c with
  | none, some x => some (x, n)
  | some y, some x => if x < y.1 then some (x, n) else some y
  | b, none => b

/-- The least contribution to an actuator with the lowest-numbered entry that gives it (R71). -/
def leastContribution (i : EvalInput) (t : EnvTable) (a : Actuator) : Option (Int × Nat) :=
  entryNumbers.foldl (fun best n => lesser best n (contribution i t n a)) none

/-- The binding zone is a FAULTED entry (R71). -/
def boundByFault (t : EnvTable) (b : Option (Int × Nat)) : Bool :=
  match b with
  | some x => decide (entryView t x.2 = .faulted)
  | none => false

/-- The scale of an actuator from its least contribution. -/
def scaleOf (b : Option (Int × Nat)) : Int :=
  match b with
  | some x => x.1
  | none => 1000

/-- The record of an evaluation of quality GOOD or DEGRADED (R71). -/
def usableRecord (i : EvalInput) (t : EnvTable) : EvalRecord :=
  { scales := sixActs fun a => scaleOf (leastContribution i t a)
    binding := sixActs fun a => (leastContribution i t a).map fun x => x.2
    fallback := allActuators.any fun a => boundByFault t (leastContribution i t a) }

/-- The lowest-numbered ACTIVE or FAULTED entry that constrains an actuator (R69). -/
def firstConstraint (t : EnvTable) (a : Actuator) : Option Nat := entryNumbers.find? fun n => constrains t n a

/-- The record of an evaluation of an unusable pose (R69). -/
def unusableRecord (t : EnvTable) (g : Geometry) : EvalRecord :=
  { scales := sixActs fun a => if (firstConstraint t a).isSome then actGet g.fallback a else 1000
    binding := sixActs fun a => firstConstraint t a
    fallback := true }

/-! ## Marks and events (R73 to R75) -/

/-- The kind is not SECTOR_STOP. -/
def isLimit (b : ZoneBody) : Bool := decide (b.kind ≠ .sectorStop)

/-- The front is clear of an entry (R74). -/
def frontClear (i : EvalInput) (b : ZoneBody) : Bool :=
  !insideSector b i.psi || decide (0 ≤ limitDistance b i.points)

/-- Entry `n`'s inside mark after a usable evaluation (R73). -/
def insideAfter (i : EvalInput) (t : EnvTable) (n : Nat) (old : Bool) : Bool :=
  match entryView t n with
  | .active b => if isLimit b then old else insideSector b i.psi
  | _ => old

/-- Entry `n`'s clear mark after a usable evaluation (R74). -/
def clearAfter (i : EvalInput) (t : EnvTable) (n : Nat) (old : Bool) : Bool :=
  match entryView t n with
  | .active b => if isLimit b then frontClear i b else old
  | _ => old

/-- A SLEW_ENTRY event of entry `n` (R73). -/
def slewEntryEvent (i : EvalInput) (t : EnvTable) (inside : List Bool) (n : Nat) : Option SlewEntryStamp :=
  match entryView t n with
  | .active b =>
    if isLimit b = false ∧ insideSector b i.psi ∧ inside.getD n false = false then some ⟨n, i.psi, i.omega, i.seq⟩
    else none
  | _ => none

/-- A LIMIT_BREACH event of entry `n` (R74). -/
def breachEvent (i : EvalInput) (t : EnvTable) (clear : List Bool) (n : Nat) : Option LimitBreachStamp :=
  match entryView t n with
  | .active b =>
    if isLimit b ∧ frontClear i b = false ∧ clear.getD n false = true then
      some ⟨n, b.kind, sat16 (limitDistance b i.points), i.psi, i.seq⟩
    else none
  | _ => none

/-- The slew is late for an allowance (R75). -/
def isLate (omega : Int) (x : Allowance) : Bool := decide (11 * x.omegaMax < 10 * magnitude omega)

/-- The late-braking record of an allowance that the slew is late for (R75). -/
def lateRecord (i : EvalInput) (n : Nat) (dir : Direction) (x : Option Allowance) : Option LateBrakingStamp :=
  match x with
  | some y => if isLate i.omega y then some ⟨n, dir, i.omega, y.omegaMax, y.distance, i.seq⟩ else none
  | none => none

/-- A LATE_BRAKING event of entry `n`, for the direction of motion (R75). -/
def lateEvent (i : EvalInput) (t : EnvTable) (n : Nat) : Option LateBrakingStamp :=
  match entryView t n with
  | .active b =>
    if 0 < i.omega then lateRecord i n .ccw (approaches i b).ccw
    else if i.omega < 0 then lateRecord i n .cw (approaches i b).cw
    else none
  | _ => none

/-- The events of one evaluation, each kind in ascending entry number (R76). -/
def evalEvents (i : EvalInput) (t : EnvTable) (e : Evaluator) : EvalResult :=
  { entries := entryNumbers.filterMap (slewEntryEvent i t e.inside)
    breaches := entryNumbers.filterMap (breachEvent i t e.clear)
    late := entryNumbers.filterMap (lateEvent i t) }

/-- The marks after a usable evaluation. -/
def marksAfter (f : Nat → Bool → Bool) (marks : List Bool) : List Bool := marks.mapIdx f

/-! ## Stage EVALUATE (R60) -/

/-- The design height of the grade plane at the tip's reach (R54, R82). -/
def designHeight (p : PlaneBody) (reach : Int) : Int := p.elevation + truncDiv (reach * p.slope) 1000

/-- The table with entry 32's limit recomputed for a usable pose, when that entry is ACTIVE (R54). -/
def withFloorLimit (pts : Points) (t : EnvTable) : EnvTable :=
  match t.plane with
  | .present _ b => if b.hold then { t with floorLimit := some (designHeight b pts.p3.r) } else t
  | _ => t

/-- The deceleration of an evaluation (R60). -/
def chooseAlpha (g : Geometry) (phase : Phase) : Int :=
  match phase with
  | .swingLoaded => g.alphaLoaded
  | _ => g.alphaEmpty

/-- What a solve's evaluation reads. -/
def evalInput (l : Latch) (p : PoseResult) (pts : Points) : EvalInput :=
  { points := pts, psi := p.psi, omega := p.omega
    alpha := chooseAlpha (geometryFields l.geometry) l.phase
    geometry := geometryFields l.geometry, seq := l.sample.seq }

/-- The points an evaluation may use: those of a solve whose quality is GOOD or DEGRADED. -/
def usablePoints (p : PoseResult) : Option Points := if usable p.quality then p.points else none

/-- The evaluator after a usable evaluation. -/
def evaluatorAfter (i : EvalInput) (t : EnvTable) (e : Evaluator) : Evaluator :=
  { record := usableRecord i t, inside := marksAfter (insideAfter i t) e.inside
    clear := marksAfter (clearAfter i t) e.clear }

/-- An evaluation that found no event. -/
def noEvents : EvalResult := ⟨[], [], []⟩

/-- Stage EVALUATE of a solve; stage AIDS then begins and latches the aid record and the payload table (R60, R81). -/
def stageEvaluate (l : Latch) (p : PoseResult) (s : State) : State :=
  match usablePoints p with
  | some pts =>
    let t := withFloorLimit pts s.table
    let i := evalInput l p pts
    { s with
      table := t
      evaluator := evaluatorAfter i t s.evaluator
      solver := { s.solver with solve := .aids l p (evalEvents i t s.evaluator) s.aid.record s.aid.table } }
  | none =>
    { s with
      evaluator := { s.evaluator with record := unusableRecord s.table (geometryFields l.geometry) }
      solver := { s.solver with solve := .aids l p noEvents s.aid.record s.aid.table } }

/-- STAGE_EVALUATE (R60): nothing unless a solve is in that stage (log 3). -/
def execStageEvaluate (s : State) : Host.Outcome State Fault Refusal :=
  match s.solver.solve with
  | .evaluate l p => .next (stageEvaluate l p s)
  | _ => .next s

/-! ## Writing the pending set; sample loss (R70, R77) -/

/-- The evaluator's record written into the pending set: scales, binding zones and FALLBACK. -/
def writeScales (s : State) : State :=
  { s with output := { s.output with pending :=
      { s.output.pending with
        scales := s.evaluator.record.scales, binding := s.evaluator.record.binding
        fallback := s.evaluator.record.fallback } } }

/-- The evaluator's record replaced and written. -/
def rewriteRecord (r : EvalRecord) (s : State) : State :=
  writeScales { s with evaluator := { s.evaluator with record := r } }

/-- The record of an unusable pose as table and geometry stand now. -/
def fallbackNow (s : State) : EvalRecord := unusableRecord s.table (geometryFields s.solver.geometry)

/-- Sample loss at the evaluator (R70). -/
def evaluatorSampleLoss (s : State) : State :=
  let s1 := rewriteRecord (fallbackNow s) s
  { s1 with
    evaluator := { s1.evaluator with inside := clearMarks, clear := clearMarks }
    output := { s1.output with pending :=
      { s1.output.pending with
        quality := .lost, phase := .idle, seq := s.intake.lastSolved.map fun x => x.seq } } }

/-- The rewrite of R77 after an applied edit. -/
def editRewrite (s : State) : State :=
  let r := fallbackNow s
  if usable s.solver.pose.quality = false ∧
      (r.scales ≠ s.evaluator.record.scales ∨ r.binding ≠ s.evaluator.record.binding) then
    rewriteRecord r s
  else s

/-! ## Applying edits (R45 to R48, R53, R36) -/

/-- The previous-position marks of one entry cleared. -/
def clearEntryMarks (n : Nat) (s : State) : State :=
  { s with evaluator := { s.evaluator with
      inside := s.evaluator.inside.set n false, clear := s.evaluator.clear.set n false } }

/-- The zone entry's origin is SITE. -/
def isSite : Zone → Bool
  | .active .site _ => true
  | .suspended .site _ => true
  | .faulted => true
  | _ => false

/-- The plane's origin is SITE. -/
def planeIsSite : GradePlane → Bool
  | .present .site _ => true
  | .faulted => true
  | _ => false

/-- The origin that a link writes (R46, R53). -/
def originOf : Link → Origin
  | .sl => .site
  | _ => .operator

/-- What a ZONE_EDIT action makes of an entry, after the check of R45: the result, and the entry when it changes
(R46 to R48). -/
def zoneAfter (l : Link) (act : ZoneAction) (z : Zone) : Result × Option Zone :=
  match act, z with
  | .write b, _ => (.ok, some (.active (originOf l) b))
  | .delete, .empty => (.notFound, none)
  | .delete, _ => (.ok, some .empty)
  | .suspend, .active o b => (.ok, some (.suspended o b))
  | .suspend, _ => (.wrongState, none)
  | .resume, .suspended o b => (.ok, some (.active o b))
  | .resume, _ => (.wrongState, none)

/-- Entry `n` of the table. -/
def zoneAt (s : State) (n : Nat) : Zone := s.table.zones.getD n .empty

/-- RESUME alone leaves the marks, which the SUSPEND cleared (R48). -/
def clearsMarks : ZoneAction → Bool
  | .resume => false
  | _ => true

/-- A zone entry replaced by an accepted edit. -/
def putZone (n : Nat) (z : Zone) (s : State) : State := { s with table := { s.table with zones := s.table.zones.set n z } }

/-- An accepted zone edit: the entry, its marks, the dirty mark of R56 and the rewrite of R77. -/
def acceptZone (n : Nat) (act : ZoneAction) (z : Zone) (s : State) : State :=
  let s1 := putZone n z s
  let s2 := if clearsMarks act then clearEntryMarks n s1 else s1
  let s3 := if isSite (zoneAt s n) || isSite z then markDirty (.zone n) s2 else s2
  editRewrite s3

/-- A ZONE_EDIT applied: its result and the state after it (R45 to R48). -/
def applyZone (l : Link) (n : Nat) (act : ZoneAction) (s : State) : Result × State :=
  if l ≠ .sl ∧ isSite (zoneAt s n) then (.isProtected, s)
  else
    match zoneAfter l act (zoneAt s n) with
    | (r, some z) => (r, acceptZone n act z s)
    | (r, none) => (r, s)

/-- What a SET_GRADE action makes of the plane, after the check of R45 (R53). -/
def planeAfter (l : Link) (act : PlaneAction) (p : GradePlane) : Result × Option GradePlane :=
  match act, p with
  | .set b, _ => (.ok, some (.present (originOf l) b))
  | .clear, .absent => (.notFound, none)
  | .clear, _ => (.ok, some .absent)

/-- Entry 32 is ACTIVE (R54). -/
def holdActive : GradePlane → Bool
  | .present _ b => b.hold
  | _ => false

/-- The plane replaced; entry 32's limit is absent while that entry is not ACTIVE (R54; log 18). -/
def putPlane (p : GradePlane) (s : State) : State :=
  { s with table := { s.table with plane := p, floorLimit := if holdActive p then s.table.floorLimit else none } }

/-- An accepted plane edit: the plane, the marks of entry 32, the dirty mark of R56 and the rewrite of R77. -/
def acceptPlane (p : GradePlane) (s : State) : State :=
  let s1 := clearEntryMarks Config.zoneCount (putPlane p s)
  let s2 := if planeIsSite s.table.plane || planeIsSite p then markDirty .grade s1 else s1
  editRewrite s2

/-- A SET_GRADE applied (R53). -/
def applyPlane (l : Link) (act : PlaneAction) (s : State) : Result × State :=
  if l ≠ .sl ∧ planeIsSite s.table.plane then (.isProtected, s)
  else
    match planeAfter l act s.table.plane with
    | (r, some p) => (r, acceptPlane p s)
    | (r, none) => (r, s)

/-- The last good values saturated into the ranges of a geometry record (R16, R36). -/
def saturateGood (g : Geometry) (x : LastGood) : LastGood :=
  { boom := clamp g.boomRange.lo g.boomRange.hi x.boom, arm := clamp g.armRange.lo g.armRange.hi x.arm
    bucket := clamp g.bucketRange.lo g.bucketRange.hi x.bucket
    pitch := clamp g.pitchRange.lo g.pitchRange.hi x.pitch, slew := x.slew }

/-- A SET_GEOMETRY applied (R36). -/
def applyGeometry (g : Geometry) (s : State) : State :=
  editRewrite (markDirty .geometry
    { s with solver := { s.solver with geometry := .present g, good := saturateGood g s.solver.good } })

/-- An edit applied: the request it was, its result, the values its answer carries and the state after it (R49, R53,
R36). -/
def applyEdit (l : Link) (e : Edit) (s : State) : (Request × Result × Echo) × State :=
  match e with
  | .zone n act =>
    let r := applyZone l n act s
    ((.zoneEdit, r.1, .zone n act (zoneAt r.2 n)), r.2)
  | .grade act =>
    let r := applyPlane l act s
    ((.setGrade, r.1, .grade act r.2.table.plane), r.2)
  | .geometry g => ((.setGeometry, .ok, .geometry g), applyGeometry g s)

/-- An edit applied and answered. -/
def performEdit (s : State) (q : QueuedEdit) : State :=
  let x := applyEdit q.link q.edit s
  replyLater q.link q.owed x.1.1 x.1.2.1 x.1.2.2 x.2

/-- No solve is in flight. -/
def solverIdle (s : State) : Bool := decide (s.solver.solve = .idle)

/-- The values a BUSY answer shows (R49, R53; log 25). -/
def busyEcho : Edit → Request × Echo
  | .zone n act => (.zoneEdit, .zoneEdit n act)
  | .grade act => (.setGrade, .gradeEdit act)
  | .geometry g => (.setGeometry, .geometry g)

/-- An edit that passed its taking checks: applied at once while the solver is IDLE, else queued or answered BUSY
(R44). -/
def takeEdit (l : Link) (e : Edit) (s : State) : State :=
  if solverIdle s then performEdit s ⟨l, true, e⟩
  else if s.table.queue.length < Config.editCapacity then
    { s with table := { s.table with queue := s.table.queue ++ [⟨l, true, e⟩] } }
  else reply l (busyEcho e).1 .busy (busyEcho e).2 s

/-- ZONE_EDIT at the table (R43). -/
def serveZoneEdit (l : Link) (d : Payload) (s : State) : State :=
  match takeZoneEdit d with
  | some x => takeEdit l (.zone x.1 x.2) s
  | none => reply l .zoneEdit .badField (.received d) s

/-- SET_GRADE at the table (R52). -/
def serveSetGrade (l : Link) (d : Payload) (s : State) : State :=
  match d with
  | .setGrade action p =>
    match takePlane action p with
    | some act => takeEdit l (.grade act) s
    | none => reply l .setGrade .badField (.received d) s
  | _ => reply l .setGrade .badField (.received d) s

/-- SET_GEOMETRY at the solver (R36). -/
def serveSetGeometry (l : Link) (d : Payload) (s : State) : State :=
  match d with
  | .geometry g =>
    if rangesCrossed g then reply l .setGeometry .badField (.received d) s
    else takeEdit l (.geometry (clampGeometry g)) s
  | _ => reply l .setGeometry .badField (.received d) s

/-! ## Meanings -/

/-- ZONE_EDIT WRITE (R43 to R46). -/
def execZoneEditWrite (l : Link) (s : State) : Host.Outcome State Fault Refusal :=
  .next (takeRequest (.zoneEditWrite l) l (serveZoneEdit l) s)

/-- ZONE_EDIT DELETE (R47). -/
def execZoneEditDelete (l : Link) (s : State) : Host.Outcome State Fault Refusal :=
  .next (takeRequest (.zoneEditDelete l) l (serveZoneEdit l) s)

/-- ZONE_EDIT SUSPEND (R48). -/
def execZoneEditSuspend (l : Link) (s : State) : Host.Outcome State Fault Refusal :=
  .next (takeRequest (.zoneEditSuspend l) l (serveZoneEdit l) s)

/-- ZONE_EDIT RESUME (R48). -/
def execZoneEditResume (l : Link) (s : State) : Host.Outcome State Fault Refusal :=
  .next (takeRequest (.zoneEditResume l) l (serveZoneEdit l) s)

/-- SET_GRADE SET (R52, R53). -/
def execSetGradeSet (l : Link) (s : State) : Host.Outcome State Fault Refusal :=
  .next (takeRequest (.setGradeSet l) l (serveSetGrade l) s)

/-- SET_GRADE CLEAR (R52, R53). -/
def execSetGradeClear (l : Link) (s : State) : Host.Outcome State Fault Refusal :=
  .next (takeRequest (.setGradeClear l) l (serveSetGrade l) s)

/-- SET_GEOMETRY (R36). -/
def execSetGeometry (l : Link) (s : State) : Host.Outcome State Fault Refusal :=
  .next (takeRequest (.setGeometry l) l (serveSetGeometry l) s)

end Sys2Proof.Machine
end

