-- ==== Sys2Proof/Machine/Aids.lean ====
section
/-! DEFINITION. The aid unit (spec/05): grade offset and cue, the cycle detector, the payload, stage AIDS, and the
meanings of STAGE_AIDS and SET_AIDS. -/

namespace Sys2Proof.Machine

/-! ## Grade (R82 to R84) -/

/-- The grade offset at a tip position (R82). -/
def gradeOffset (b : PlaneBody) (tip : Point) : Int := clamp (-32767) 32767 (tip.z - designHeight b tip.r)

/-- The cue of a grade offset (R83). -/
def cueOf (tolerance g : Int) : Cue := if tolerance < g then .above else if g < -tolerance then .below else .on

/-- Grade offset and cue of a usable pose: absent and NONE without a PRESENT plane (R84). -/
def gradeOf (plane : GradePlane) (tip : Point) : Option Int × Cue :=
  match plane with
  | .present _ b => (some (gradeOffset b tip), cueOf b.tolerance (gradeOffset b tip))
  | _ => (none, .none)

/-! ## Payload (R92 to R95) -/

/-- The net boom force of a sample in kN (R92). -/
def boomForce (r : AidRecord) (x : Sample) : Int :=
  clamp (-32767) 32767 (truncDiv (x.boomHead * r.headArea - x.boomRod * r.rodArea) 1000000)

/-- The table value at a reach between or beyond the points that remain, the first of them standing at or below it
(R94). -/
def tableWalk (f : PayloadPoint → Int) (reach : Int) : PayloadPoint → List PayloadPoint → Int
  | p, [] => f p
  | p, q :: qs => if reach < q.reach then interpolate reach p.reach q.reach (f p) (f q) else tableWalk f reach q qs

/-- F_empty or K of the payload table at a reach (R94). -/
def tableAt (f : PayloadPoint → Int) (t : Eight PayloadPoint) (reach : Int) : Int :=
  if reach < t.p0.reach then f t.p0 else tableWalk f reach t.p0 [t.p1, t.p2, t.p3, t.p4, t.p5, t.p6, t.p7]

/-- The payload in kg from the averages (R95). -/
def payloadKg (t : Eight PayloadPoint) (force reach : Int) : Int :=
  clamp 0 65535 (truncDiv ((force - tableAt (fun p => p.empty) t reach) * tableAt (fun p => p.gain) t reach) 10)

/-- The average reach of the loaded swing, absent when no solve was averaged (R93). -/
def averageReach (u : AidUnit) : Option Int := if u.averaged = 0 then none else some (truncDiv u.reachSum u.averaged)

/-- The payload of the loaded swing (R93). -/
def swingPayload (t : Eight PayloadPoint) (u : AidUnit) : Option Int :=
  if u.pressureInvalid then none
  else (averageReach u).map fun reach => payloadKg t (truncDiv u.forceSum u.averaged) reach

/-- Sums, counts and mark of the loaded swing cleared. -/
def clearSums (u : AidUnit) : AidUnit :=
  { u with loaded := 0, forceSum := 0, reachSum := 0, averaged := 0, pressureInvalid := false }

/-- Some pressure channel is marked invalid (R91). -/
def pressureFault (v : Validity) : Bool := !(v.boomHead && v.boomRod && v.armHead)

/-- An averaged solve added to the sums; once 65535 solves are averaged nothing more is added (R91; log 27). -/
def addAverage (r : AidRecord) (x : Sample) (reach : Int) (u : AidUnit) : AidUnit :=
  let v := { u with pressureInvalid := u.pressureInvalid || pressureFault x.valid }
  if 65535 ≤ u.averaged then v
  else { v with forceSum := u.forceSum + boomForce r x, reachSum := u.reachSum + reach, averaged := u.averaged + 1 }

/-- A loaded solve (R91). -/
def addLoaded (r : AidRecord) (x : Sample) (reach : Int) (u : AidUnit) : AidUnit :=
  let v := { u with loaded := min 255 (u.loaded + 1) }
  if r.settle < v.loaded then addAverage r x reach v else v

/-! ## Cycle detector (R85 to R90, R96 to R98) -/

/-- The arm head pressure is valid and at or above a threshold. -/
def armAtLeast (x : Sample) (threshold : Int) : Bool := x.valid.armHead && decide (threshold ≤ x.armHead)

/-- The condition of IDLE and SWING_EMPTY to enter DIG (R85). -/
def digReady (r : AidRecord) (x : Sample) (omega : Int) : Bool :=
  decide (magnitude omega < r.omegaStill) && armAtLeast x r.digPressure

/-- The phase that the transition out of a phase leads to, when its condition holds (table of R85). -/
def nextPhase (r : AidRecord) (x : Sample) (p : PoseResult) : Phase → Option Phase
  | .idle => if digReady r x p.omega then some .dig else none
  | .dig => if r.omegaSwing ≤ magnitude p.omega ∧ r.curl ≤ p.bucket then some .swingLoaded else none
  | .swingLoaded => if p.bucket < r.dump then some .dump else none
  | .dump => if r.omegaSwing ≤ magnitude p.omega then some .swingEmpty else none
  | .swingEmpty => if digReady r x p.omega then some .dig else none

/-- A cycle is being timed: DIG or SWING_LOADED (R87). -/
def timesCycle : Phase → Bool
  | .dig => true
  | .swingLoaded => true
  | _ => false

/-- The cycle elapsed after a solve's interval (R87). -/
def addElapsed (interval : Nat) (u : AidUnit) : AidUnit :=
  if timesCycle u.phase then { u with elapsed := min 240000 (u.elapsed + interval) } else u

/-- What step 3 of R81 gives beside the aid unit: the request to the ladder, the payload of a completed cycle and its
stamp event. -/
structure CycleOutcome where
  unit : AidUnit
  boost : Option BoostRequest
  completed : Option (Option Int)
  stamp : Option CycleStamp
  deriving DecidableEq, Repr

/-- The last cycle record formed at DUMP entry (R96). -/
def cycleRecord (x : Sample) (t : Eight PayloadPoint) (u : AidUnit) : CycleRecord :=
  { seq := x.seq, start := u.start, endTimestamp := x.timestamp, duration := u.elapsed, reach := averageReach u
    payload := swingPayload t u }

/-- DUMP entry: the record, the sums cleared, and the prescaler (R93, R96, R98). -/
def enterDump (r : AidRecord) (x : Sample) (t : Eight PayloadPoint) (u : AidUnit) : CycleOutcome :=
  let c := cycleRecord x t u
  let n := u.prescaler + 1
  { unit := { clearSums u with last := some c, start := none, prescaler := if r.prescale ≤ n then 0 else n }
    boost := none, completed := some c.payload
    stamp := if r.prescale ≤ n then some ⟨c, r.prescale, n⟩ else none }

/-- The entry work of a phase (R87, R89, R90). -/
def enterPhase (r : AidRecord) (x : Sample) (t : Eight PayloadPoint) (n : Phase) (u : AidUnit) : CycleOutcome :=
  let v := { u with phase := n, timeIn := 0 }
  match n with
  | .dig =>
    { unit := { v with start := some ⟨x.seq, x.timestamp⟩, elapsed := 0 }
      boost := if armAtLeast x r.boostPressure then some .place else none, completed := none, stamp := none }
  | .swingLoaded => { unit := clearSums v, boost := some .withdraw, completed := none, stamp := none }
  | .dump => enterDump r x t v
  | _ => { unit := v, boost := none, completed := none, stamp := none }

/-- The effects of a cycle timeout by the phase left (R86). -/
def timeoutFrom (u : AidUnit) : CycleOutcome :=
  let v := { u with phase := .idle, timeIn := 0 }
  match u.phase with
  | .dig => { unit := { v with start := none }, boost := some .withdraw, completed := none, stamp := none }
  | .swingLoaded => { unit := { clearSums v with start := none }, boost := none, completed := none, stamp := none }
  | _ => { unit := v, boost := none, completed := none, stamp := none }

/-- A solve without a transition: the time in phase advances, and the phase may time out (R86). -/
def stayInPhase (r : AidRecord) (interval : Nat) (u : AidUnit) : CycleOutcome :=
  let n := min 120000 (u.timeIn + interval)
  if u.phase ≠ .idle ∧ 1000 * r.timeout ≤ n then timeoutFrom u
  else { unit := { u with timeIn := n }, boost := none, completed := none, stamp := none }

/-- Step 3 of R81. -/
def cycleStep (r : AidRecord) (x : Sample) (t : Eight PayloadPoint) (p : PoseResult) (u : AidUnit) : CycleOutcome :=
  match nextPhase r x p u.phase with
  | some n => enterPhase r x t n (addElapsed p.interval u)
  | none => stayInPhase r p.interval (addElapsed p.interval u)

/-- Step 4 of R81. -/
def paySums (r : AidRecord) (x : Sample) (reach : Int) (u : AidUnit) : AidUnit :=
  if u.phase = .swingLoaded then addLoaded r x reach u else u

/-- The forced return to IDLE (R88). DESIGN CHOICE: the time in phase and the cycle elapsed become 0 from IDLE as from every
other phase, as R88's list has it; its later sentence, that a forced return from IDLE changes nothing, would keep them
(log 30). -/
def forcedReturn (u : AidUnit) : AidUnit :=
  { clearSums u with phase := .idle, timeIn := 0, start := none, elapsed := 0 }

/-! ## Stage AIDS (R81) -/

/-- Stage AIDS of a usable solve: the aid unit and the results held until completion. -/
def usableAids (plane : GradePlane) (r : AidRecord) (x : Sample) (t : Eight PayloadPoint) (p : PoseResult) (tip : Point)
    (u : AidUnit) : AidUnit × AidsResult :=
  let c := cycleStep r x t p u
  (paySums r x tip.r c.unit,
    { offset := (gradeOf plane tip).1, cue := (gradeOf plane tip).2, boost := c.boost, completed := c.completed
      stamp := c.stamp })

/-- The results of stage AIDS in a WITHHELD solve (step 1 of R81). -/
def withheldAids : AidsResult := { offset := none, cue := .none, boost := some .withdraw, completed := none, stamp := none }

/-- Stage AIDS: the aid unit and the results. -/
def aidsResults (plane : GradePlane) (r : AidRecord) (t : Eight PayloadPoint) (l : Latch) (p : PoseResult)
    (u : AidUnit) : AidUnit × AidsResult :=
  match usablePoints p with
  | some pts => usableAids plane r l.sample t p pts.p3 u
  | none => (forcedReturn u, withheldAids)

/-- STAGE_AIDS (R81): nothing unless a solve is in that stage (log 3). -/
def execStageAids (s : State) : Host.Outcome State Fault Refusal :=
  match s.solver.solve with
  | .aids l p e r t =>
    let x := aidsResults s.table.plane r t l p s.aid
    .next { s with aid := x.1, solver := { s.solver with solve := .finished l p e x.2 } }
  | _ => .next s

/-! ## SET_AIDS (R99 to R101) -/

/-- SET_AIDS at the aid unit. -/
def serveSetAids (l : Link) (d : Payload) (s : State) : State :=
  match d with
  | .aidThresholds q =>
    match takeAid q with
    | some r => reply l .setAids .ok (.aidRecord r) (markDirty .aid { s with aid := { s.aid with record := r } })
    | none => reply l .setAids .badField (.received d) s
  | .aidTable q =>
    match takeTable q with
    | some t => reply l .setAids .ok (.aidTable t) (markDirty .payloadTable { s with aid := { s.aid with table := t } })
    | none => reply l .setAids .badField (.received d) s
  | _ => reply l .setAids .badField (.received d) s

/-- SET_AIDS THRESHOLDS (R99), and a part selector that is neither (log 17). -/
def execSetAidsThresholds (l : Link) (s : State) : Host.Outcome State Fault Refusal :=
  .next (takeRequest (.setAidsThresholds l) l (serveSetAids l) s)

/-- SET_AIDS TABLE (R100). -/
def execSetAidsTable (l : Link) (s : State) : Host.Outcome State Fault Refusal :=
  .next (takeRequest (.setAidsTable l) l (serveSetAids l) s)

end Sys2Proof.Machine
end

