-- ==== Sys2Proof/Machine/Pose.lean ====
section
/-! DEFINITION. Samples and stage POSE (spec/01, spec/02): the intake, the start of a solve, the causes and the pose,
sample loss, and the meanings of SAMPLE, STAGE_POSE, STALE_TIMER_EXPIRY, SET_SOLVER, READ_FLAGS and CLEAR_FLAGS. -/

namespace Sys2Proof.Machine

/-! ## The intake (R3 to R8) -/

/-- What a solve of a sample latches as it begins (R8). -/
def latchOf (x : Sample) (s : State) : Latch :=
  { sample := x, control := s.solver.control, geometry := s.solver.geometry, phase := s.aid.phase
    restart := s.intake.restartMark, last := s.intake.lastSolved }

/-- A sample begins a solve; the latching clears the restart mark (R7, R8). -/
def beginSolve (x : Sample) (s : State) : State :=
  { s with
    solver := { s.solver with solve := .pose (latchOf x s) }
    intake := { s.intake with restartMark := false } }

/-- A taken sample restarts the stale timer with the limit in force, and the intake is FRESH (R5). -/
def restartStale (s : State) : State :=
  { s with intake := { s.intake with
      state := .fresh
      stale := some ⟨s.solver.control.staleLimit.toNat, s.solver.control.staleLimit.toNat⟩ } }

/-- A sample that is no duplicate is taken (R4). -/
def takeSample (x : Sample) (s : State) : State :=
  let s1 := restartStale { s with intake := { s.intake with lastTaken := some x.seq } }
  if solverIdle s then beginSolve x s1 else { s1 with intake := { s1.intake with slot := some x } }

/-- A sample at the intake (R3). -/
def intakeSample (x : Sample) (s : State) : State := if s.intake.lastTaken = some x.seq then s else takeSample x s

/-- The sample a frame's data holds; none when it is too short (R181). -/
def sampleOf (d : Payload) : Option Sample :=
  match d with
  | .bytes b => readSample b
  | _ => none

/-- The state with link `l`'s head frame removed and nothing reserved: a SAMPLE on ML needs no answer (R181). -/
def dropHead (l : Link) (s : State) : State := setPort l { portOf s l with rx := (portOf s l).rx.tail } s

/-- The ML port takes the SAMPLE at the head of its receive queue, whatever room its transmit queue has and whatever the
restart state (R1, R181). -/
def takeSampleFrame (l : Link) (s : State) : State :=
  match headFrame s l with
  | none => s
  | some f =>
    if takerOf l f = .sample l then
      match sampleOf f.data with
      | some x => intakeSample x (dropHead l s)
      | none => dropHead l s
    else s

/-- SAMPLE: taken by the intake on ML (R1, R3 to R5); answered NOT_PERMITTED on CL and SL. -/
def execSample (l : Link) (s : State) : Host.Outcome State Fault Refusal :=
  match l with
  | .ml => .next (takeSampleFrame .ml s)
  | _ => .next (takeRequest (.sample l) l (fun _ s => s) s)

/-! ## Chain channels (R15, R16, R27) -/

/-- The angle lies in its mechanical range (R23). -/
def inRange (r : AngleRange) (x : Int) : Bool := decide (r.lo ≤ x) && decide (x ≤ r.hi)

/-- The angle a channel with a range enters the chain with (R27). -/
def settleAngle (valid : Bool) (r : AngleRange) (x good : Int) : Int := if valid then clamp r.lo r.hi x else good

/-- The channel raises RANGE (R15). -/
def rangeFault (valid : Bool) (r : AngleRange) (x : Int) : Bool := !valid || !inRange r x

/-- The channel's last good value after stage POSE (R16). -/
def goodAfter (valid : Bool) (r : AngleRange) (x good : Int) : Int := if valid && inRange r x then x else good

/-- The five chain angles as settled (R15, R27). -/
structure Chain where
  boom : Int
  arm : Int
  bucket : Int
  pitch : Int
  slew : Int
  deriving DecidableEq, Repr

/-- The chain channels settled against geometry and last good values. -/
def settleChain (g : Geometry) (x : Sample) (good : LastGood) : Chain :=
  { boom := settleAngle x.valid.boomPrimary g.boomRange x.boomPrimary good.boom
    arm := settleAngle x.valid.arm g.armRange x.arm good.arm
    bucket := settleAngle x.valid.bucket g.bucketRange x.bucket good.bucket
    pitch := settleAngle x.valid.pitch g.pitchRange x.pitch good.pitch
    slew := if x.valid.slew then x.slew else good.slew }

/-- RANGE is raised (R15). -/
def rangeRaised (g : Geometry) (x : Sample) : Bool :=
  rangeFault x.valid.boomPrimary g.boomRange x.boomPrimary || rangeFault x.valid.arm g.armRange x.arm ||
    rangeFault x.valid.bucket g.bucketRange x.bucket || rangeFault x.valid.pitch g.pitchRange x.pitch || !x.valid.slew

/-- The last good values after stage POSE (R16). -/
def goodValues (g : Geometry) (x : Sample) (good : LastGood) : LastGood :=
  { boom := goodAfter x.valid.boomPrimary g.boomRange x.boomPrimary good.boom
    arm := goodAfter x.valid.arm g.armRange x.arm good.arm
    bucket := goodAfter x.valid.bucket g.bucketRange x.bucket good.bucket
    pitch := goodAfter x.valid.pitch g.pitchRange x.pitch good.pitch
    slew := if x.valid.slew then x.slew else good.slew }

/-- TILT is raised (R15). -/
def tiltRaised (g : Geometry) (x : Sample) : Bool := x.valid.roll && decide (g.rollLimit < magnitude x.roll)

/-- DISAGREE is raised (R15). -/
def disagreeRaised (g : Geometry) (x : Sample) : Bool :=
  x.valid.boomPrimary && x.valid.boomSecondary && decide (g.tolerance < magnitude (x.boomPrimary - x.boomSecondary))

/-! ## Points (R27 to R30) -/

/-- A link's reach and height terms at an absolute angle (R28). -/
def linkTerms (mode : Rounding) (len phi : Int) : Point :=
  ⟨roundTerm mode (len * cosine phi), roundTerm mode (len * sine phi)⟩

/-- The running sum of a point and the terms of the next link (R29). -/
def addTerms (p t : Point) : Point := ⟨p.r + t.r, p.z + t.z⟩

/-- The three points as exact running sums (R27, R29). -/
def exactPoints (mode : Rounding) (g : Geometry) (c : Chain) : Points :=
  let phi1 := circle (c.boom + c.pitch)
  let phi2 := circle (phi1 + c.arm)
  let phi3 := circle (phi2 + c.bucket)
  let p1 := addTerms ⟨g.x0, g.z0⟩ (linkTerms mode g.lb phi1)
  let p2 := addTerms p1 (linkTerms mode g.la phi2)
  ⟨p1, p2, addTerms p2 (linkTerms mode g.lk phi3)⟩

/-- A point as published. -/
def publishPoint (p : Point) : Point := ⟨sat16 p.r, sat16 p.z⟩

/-- The points as published (R29). -/
def publishPoints (p : Points) : Points := ⟨publishPoint p.p1, publishPoint p.p2, publishPoint p.p3⟩

/-- The points of a solve, absent when GEOMETRY is raised (R30). -/
def exactOf (l : Latch) (c : Chain) : Option Points :=
  match l.geometry with
  | .present g => some (exactPoints l.control.rounding g c)
  | _ => none

/-- A coordinate had to be saturated (R29). -/
def overflowRaised (p : Option Points) : Bool :=
  match p with
  | some q => decide (publishPoints q ≠ q)
  | none => false

/-! ## Slew speed (R13, R31 to R34) -/

/-- The uncapped interval between two timestamps (R13). -/
def intervalOf (new old : Nat) : Nat := (new + 65536 - old % 65536) % 65536

/-- The signed slew change (R31). -/
def signedChange (new old : Int) : Int := circle (new - old + 32768) - 32768

/-- The dead-band flush (R34). -/
def flushOmega (c : SolverControl) (omega : Int) : Int := if c.flush ∧ magnitude omega < c.deadBand then 0 else omega

/-- What the slew channel gives a solve: interval capped for the accumulators, signed change, speed, STEP. -/
structure SlewResult where
  interval : Nat
  change : Option Int
  omega : Int
  step : Bool
  deriving DecidableEq, Repr

/-- The speed of cases 2 to 4 of R32 with the step check of R33, before the flush: the speed, and whether STEP is
raised. -/
def formSpeed (g : Geometry) (limit : Int) (valid : Bool) (dt : Nat) (change old : Int) : Int × Bool :=
  if valid = false then (old, false)
  else if dt = 0 ∨ limit < dt then (old, false)
  else
    let w := truncDiv (change * 1000) dt
    if 2 * g.ratedSlew < magnitude w then (old, true) else (w, false)

/-- The slew part of stage POSE. A solve is a restart solve when it latched the restart mark (R7); one without a last
solved sample behind it, which no run reaches otherwise, is treated so too (log 20). -/
def solveSlew (l : Latch) (psi : Int) : SlewResult :=
  match l.restart, l.last with
  | false, some b =>
    let dt := intervalOf l.sample.timestamp b.timestamp
    let change := signedChange psi b.psi
    let w := formSpeed (geometryFields l.geometry) l.control.staleLimit l.sample.valid.slew dt change b.omega
    { interval := min dt l.control.staleLimit.toNat, change := some change, omega := flushOmega l.control w.1
      step := w.2 }
  | _, _ => { interval := 0, change := none, omega := 0, step := false }

/-! ## Stage POSE (R9, R15, R17) -/

/-- The cause set of a solve (R15). -/
def causesOf (l : Latch) (exact : Option Points) (step : Bool) : CauseSet :=
  { marks :=
      { range := rangeRaised (geometryFields l.geometry) l.sample
        tilt := tiltRaised (geometryFields l.geometry) l.sample
        disagree := disagreeRaised (geometryFields l.geometry) l.sample
        step := step, overflow := overflowRaised exact }
    geometry := exact.isNone }

/-- The results of stage POSE (R9). -/
def poseResult (l : Latch) (good : LastGood) : PoseResult :=
  let c := settleChain (geometryFields l.geometry) l.sample good
  let exact := exactOf l c
  let w := solveSlew l c.slew
  { points := exact.map publishPoints, psi := circle c.slew, omega := w.omega, bucket := c.bucket
    causes := causesOf l exact w.step, quality := decideQuality (causesOf l exact w.step) l.control.enables
    interval := w.interval, slewChange := w.change }

/-- Stage POSE: the results held in the solve; last good values, last solved sample and the cause set of the last solve
take their new values (R9, R13, R16). -/
def stagePose (l : Latch) (s : State) : State :=
  let p := poseResult l s.solver.good
  { s with
    solver := { s.solver with
      solve := .evaluate l p
      lastCauses := p.causes
      good := goodValues (geometryFields l.geometry) l.sample s.solver.good }
    intake := { s.intake with lastSolved := some ⟨l.sample.seq, l.sample.timestamp, p.psi, p.omega⟩ } }

/-- STAGE_POSE (R9): nothing unless a solve is in that stage (log 3). -/
def execStagePose (s : State) : Host.Outcome State Fault Refusal :=
  match s.solver.solve with
  | .pose l => .next (stagePose l s)
  | _ => .next s

/-! ## Sample loss (R6) -/

/-- The pose record at sample loss. -/
def losePose (s : State) : State :=
  { s with solver := { s.solver with pose := { s.solver.pose with quality := .lost, cue := .none } } }

/-- The record of a sample loss (R6). -/
def lossRecord (limit : Nat) (s : State) : SampleLossStamp :=
  { seq := s.intake.lastSolved.map fun x => x.seq, timestamp := s.intake.lastSolved.map fun x => x.timestamp
    limit := limit }

/-- SAMPLE_LOSS raised (R6). -/
def raiseLoss (limit : Nat) (s : State) : State :=
  { s with stamps := { s.stamps with sampleLoss := raiseSlot s.stamps.sampleLoss (lossRecord limit s) } }

/-- The intake after the expiry of its stale timer. -/
def staleIntake (s : State) : State :=
  { s with intake := { s.intake with state := .stale, stale := none, restartMark := true } }

/-- The forced return of the aid unit at sample loss (R88). -/
def returnAid (s : State) : State := { s with aid := forcedReturn s.aid }

/-- Sample loss, whole (R6, R70, R88, R113): no expiry of the period timer falls between the evaluator's write of the
pending set and the ladder's (DESIGN CHOICE, log 11). -/
def sampleLoss (limit : Nat) (s : State) : State :=
  ladderSampleLoss (returnAid (evaluatorSampleLoss (raiseLoss limit (losePose (staleIntake s)))))

/-- STALE_TIMER_EXPIRY (R6): nothing while the timer is stopped or a solve is in flight (log 4); otherwise its remaining
time passes and it expires. -/
def execStaleTimerExpiry (s : State) : Host.Outcome State Fault Refusal :=
  match s.intake.stale with
  | none => .next s
  | some t => if solverIdle s then .next (sampleLoss t.limit (elapse t.remaining s)) else .next s

/-! ## Solver requests (R19, R20, R38) -/

/-- SET_SOLVER at the solver (R38). -/
def serveSetSolver (l : Link) (d : Payload) (s : State) : State :=
  match d with
  | .solver rounding enables alien flush deadBand staleLimit =>
    match takeControl rounding enables alien flush deadBand staleLimit with
    | some c =>
      reply l .setSolver .ok (.solver c) (markDirty .solver { s with solver := { s.solver with control := c } })
    | none => reply l .setSolver .badField (.received d) s
  | _ => reply l .setSolver .badField (.received d) s

/-- SET_SOLVER (R38). -/
def execSetSolver (l : Link) (s : State) : Host.Outcome State Fault Refusal :=
  .next (takeRequest (.setSolver l) l (serveSetSolver l) s)

/-- The sticky flags with the named marks cleared (R20). -/
def clearSticky (named : CauseMarks) (s : State) : State :=
  { s with solver := { s.solver with sticky := clearNamed s.solver.sticky named } }

/-- A flag request performed and answered on SL, the only link it is accepted on (R19, R20). -/
def performFlag (l : Link) (s : State) (w : WaitingFlag) : State :=
  match w.request with
  | .read =>
    replyLater l w.owed .readFlags .ok (.flags s.solver.sticky s.solver.lastCauses s.solver.lastSeq) s
  | .clear named =>
    let s1 := clearSticky named s
    replyLater l w.owed .clearFlags .ok (.cleared named s1.solver.sticky) s1

/-- A flag request that joins the wait list, or is answered BUSY when four wait (R19). -/
def queueFlag (l : Link) (r : Request) (q : FlagRequest) (d : Payload) (s : State) : State :=
  if s.solver.waiting.length < Config.flagCapacity then
    { s with solver := { s.solver with waiting := s.solver.waiting ++ [⟨true, q⟩] } }
  else reply l r .busy (.received d) s

/-- A flag request that passed its taking checks: performed at once while the solver is IDLE (R19, R20). -/
def takeFlag (l : Link) (r : Request) (q : FlagRequest) (d : Payload) (s : State) : State :=
  if solverIdle s then performFlag l s ⟨true, q⟩ else queueFlag l r q d s

/-- READ_FLAGS at the solver (R19). -/
def serveReadFlags (l : Link) (d : Payload) (s : State) : State := takeFlag l .readFlags .read d s

/-- CLEAR_FLAGS at the solver (R20). -/
def serveClearFlags (l : Link) (d : Payload) (s : State) : State :=
  match d with
  | .clearFlags named alien =>
    if alien then reply l .clearFlags .badField (.received d) s else takeFlag l .clearFlags (.clear named) d s
  | _ => reply l .clearFlags .badField (.received d) s

/-- READ_FLAGS (R19). -/
def execReadFlags (l : Link) (s : State) : Host.Outcome State Fault Refusal :=
  .next (takeRequest (.readFlags l) l (serveReadFlags l) s)

/-- CLEAR_FLAGS (R20). -/
def execClearFlags (l : Link) (s : State) : Host.Outcome State Fault Refusal :=
  .next (takeRequest (.clearFlags l) l (serveClearFlags l) s)

end Sys2Proof.Machine
end

