-- ==== Sys2Proof/Machine/Output.lean ====
section
/-! DEFINITION. The output set and the cab view (spec/09), and the meanings of OUTPUT_PERIOD_EXPIRY, CAB_VIEW_EXPIRY,
SET_OUTPUT_PERIOD and STATUS_QUERY. -/

namespace Sys2Proof.Machine

/-! ## Transfer and OUTPUT (R164 to R166) -/

/-- What OUTPUT carries of a set (R166). -/
def outputMessage (o : OutputSet) : OutputMessage :=
  { seq := o.seq, scales := o.scales, target := o.target, next := o.next, fallback := o.fallback, advise := o.advise
    quality := o.quality, phase := o.phase }

/-- The transfer: the pending set copied whole into the active set, OUTPUT formed from it and handed to ML, the period
timer restarted with the period in force (R164). -/
def transferOutput (s : State) : State :=
  sendPeriodic .ml (.output (outputMessage s.output.pending))
    { s with output := { s.output with active := s.output.pending, periodTimer := some s.output.period } }

/-- OUTPUT_PERIOD_EXPIRY (R164): nothing while the timer is stopped; otherwise its remaining time passes and it
expires. -/
def execOutputPeriodExpiry (s : State) : Host.Outcome State Fault Refusal :=
  match s.output.periodTimer with
  | none => .next s
  | some n => .next (transferOutput (elapse n s))

/-! ## The cab view (R169, R170) -/

/-- The rank of an item state in CAB_VIEW; EMPTY and RETIRING take none (R170). -/
def viewRank : ItemState → Option Nat
  | .dormant => some 0
  | .warn => some 1
  | .due => some 2
  | .overdue => some 3
  | .faulted => some 4
  | _ => none

/-- The state that holds a rank. -/
def rankState : Nat → ItemState
  | 0 => .dormant
  | 1 => .warn
  | 2 => .due
  | 3 => .overdue
  | _ => .faulted

/-- The greater of two optional ranks. -/
def maxRank (a b : Option Nat) : Option Nat :=
  match a, b with
  | some x, some y => some (max x y)
  | some x, none => some x
  | none, y => y

/-- The highest rank held by any item. -/
def highestRank (items : List Item) : Option Nat := items.foldl (fun r i => maxRank r (viewRank i.state)) none

/-- An item counts as CRITICAL: by its severity, or FAULTED with its fields absent (R170). -/
def isCritical (i : Item) : Bool :=
  match i.fields with
  | some f => decide (f.severity = .critical)
  | none => true

/-- The highest item state with its severity (R170). -/
def itemSummary (items : List Item) : Option ItemSummary :=
  (highestRank items).map fun r =>
    { state := rankState r
      severity := if items.any fun i => decide (viewRank i.state = some r) && isCritical i then .critical
        else .advisory }

/-- The pose fields of CAB_VIEW are shown (R170). -/
def poseShown (p : PoseRecord) : Bool := usable p.quality

/-- CAB_VIEW as the blocks stand (R170). -/
def cabView (s : State) : CabView :=
  let p := s.solver.pose
  { tip := if poseShown p then p.points.map fun x => x.p3 else none
    psi := if poseShown p then p.psi else none
    offset := if poseShown p then p.offset else none
    cue := p.cue
    phase := s.output.active.phase
    payload := s.aid.last.bind fun c => c.payload
    ccwScale := s.output.active.scales.p4, ccwBinding := s.output.active.binding.p4
    cwScale := s.output.active.scales.p5, cwBinding := s.output.active.binding.p5
    target := s.output.active.target, quality := s.output.active.quality
    unread := s.ring.cab.unread, lost := s.ring.cab.lost
    summary := itemSummary s.items }

/-- The cab view formed, handed to CL, and its timer restarted (R169). -/
def sendCabView (s : State) : State :=
  sendPeriodic .cl (.cabView (cabView s)) { s with output := { s.output with cabTimer := some Config.cabPeriod } }

/-- CAB_VIEW_EXPIRY (R169): nothing while the timer is stopped; otherwise its remaining time passes and it expires. -/
def execCabViewExpiry (s : State) : Host.Outcome State Fault Refusal :=
  match s.output.cabTimer with
  | none => .next s
  | some n => .next (sendCabView (elapse n s))

/-! ## Requests (R167, R168) -/

/-- The output period as taken (R167). -/
def takePeriod (ms : Int) : Nat := (clamp 10 100 ms).toNat

/-- SET_OUTPUT_PERIOD at the output set (R167). -/
def serveSetOutputPeriod (l : Link) (d : Payload) (s : State) : State :=
  match d with
  | .outputPeriod ms =>
    reply l .setOutputPeriod .ok (.period (takePeriod ms))
      (markDirty .outputPeriod
        { s with output := { s.output with period := takePeriod ms, periodTimer := some (takePeriod ms) } })
  | _ => reply l .setOutputPeriod .badField (.received d) s

/-- SET_OUTPUT_PERIOD (R167). -/
def execSetOutputPeriod (l : Link) (s : State) : Host.Outcome State Fault Refusal :=
  .next (takeRequest (.setOutputPeriod l) l (serveSetOutputPeriod l) s)

/-- The receive-overrun flag of a port cleared, as an answer that reports it does (R180). -/
def clearOverrun (l : Link) (s : State) : State := setPort l { portOf s l with overrun := false } s

/-- STATUS_QUERY (R168). -/
def serveStatusQuery (l : Link) (_ : Payload) (s : State) : State :=
  reply l .statusQuery .ok
    (.status s.part s.output.active s.solver.pose s.output.period (portOf s l).overrun) (clearOverrun l s)

/-- STATUS_QUERY (R168). -/
def execStatusQuery (l : Link) (s : State) : Host.Outcome State Fault Refusal :=
  .next (takeRequest (.statusQuery l) l (serveStatusQuery l) s)

end Sys2Proof.Machine
end

