-- ==== Sys2Proof/Machine/Stamp.lean ====
section
/-! DEFINITION. Reading the stamp slots (spec/10), and the meaning of STAMP_READ. -/

namespace Sys2Proof.Machine

/-- The record a slot holds, as an answer carries it (R176). -/
def slotRecord (t : Stamps) : StampKind → Option StampRecord
  | .slewEntry => t.slewEntry.held.map StampRecord.slewEntry
  | .limitBreach => t.limitBreach.held.map StampRecord.limitBreach
  | .lateBraking => t.lateBraking.held.map StampRecord.lateBraking
  | .solveFault => t.solveFault.held.map StampRecord.solveFault
  | .sampleLoss => t.sampleLoss.held.map StampRecord.sampleLoss
  | .cycle => t.cycle.held.map StampRecord.cycle
  | .storeFault => t.storeFault.held.map StampRecord.storeFault

/-- A slot's hidden overflow, which the read makes visible (R176). -/
def slotHidden (t : Stamps) : StampKind → Bool
  | .slewEntry => t.slewEntry.hidden
  | .limitBreach => t.limitBreach.hidden
  | .lateBraking => t.lateBraking.hidden
  | .solveFault => t.solveFault.hidden
  | .sampleLoss => t.sampleLoss.hidden
  | .cycle => t.cycle.hidden
  | .storeFault => t.storeFault.hidden

/-- The slots after a read of one of them (R176). -/
def readStamp (t : Stamps) : StampKind → Stamps
  | .slewEntry => { t with slewEntry := readSlot t.slewEntry }
  | .limitBreach => { t with limitBreach := readSlot t.limitBreach }
  | .lateBraking => { t with lateBraking := readSlot t.lateBraking }
  | .solveFault => { t with solveFault := readSlot t.solveFault }
  | .sampleLoss => { t with sampleLoss := readSlot t.sampleLoss }
  | .cycle => { t with cycle := readSlot t.cycle }
  | .storeFault => { t with storeFault := readSlot t.storeFault }

/-- STAMP_READ at the stamp block (R176). -/
def serveStampRead (l : Link) (d : Payload) (s : State) : State :=
  match d with
  | .stampRead (some k) =>
    reply l .stampRead .ok (.stamp k (slotRecord s.stamps k) (slotHidden s.stamps k))
      { s with stamps := readStamp s.stamps k }
  | _ => reply l .stampRead .badField (.received d) s

/-- STAMP_READ (R176). -/
def execStampRead (l : Link) (s : State) : Host.Outcome State Fault Refusal :=
  .next (takeRequest (.stampRead l) l (serveStampRead l) s)

end Sys2Proof.Machine
end

