-- ==== Sys2Proof/Machine/Links.lean ====
section
/-! DEFINITION. The links (spec/11 sections 11.1 to 11.3): frames, link restarts, and the meanings of FRAME_RECEIVED,
FRAME_TRANSMITTED, BUS_OFF, BUS_OFF_RECOVERY, UNKNOWN_REQUEST and IDENTIFY. -/

namespace Sys2Proof.Machine

/-- The NODES record has been read: from then on ports accept frames, in LOADING too (R179). -/
def nodesRead (s : State) : Bool := decide (s.part ≠ .loading) || decide (s.examined ≠ 0)

/-- FRAME_RECEIVED (R179, R180, R183). -/
def execFrameReceived (l : Link) (f : RxFrame) (s : State) : Host.Outcome State Fault Refusal :=
  if nodesRead s then .next (setPort l (receiveFrame (portOf s l) f) s) else .next s

/-- FRAME_TRANSMITTED: the oldest frame leaves the transmit queue (R182); nothing while the queue holds none, or in
BUS_OFF (R183). -/
def execFrameTransmitted (l : Link) (s : State) : Host.Outcome State Fault Refusal :=
  if (portOf s l).state = .active then .next (setPort l { portOf s l with tx := (portOf s l).tx.tail } s)
  else .next s

/-- A port on entry into BUS_OFF (R183). -/
def portOff (p : Port) : Port :=
  { p with state := .busOff, rx := [], tx := [], reserved := 0, overrun := p.overrun || !p.rx.isEmpty }

/-- A queued edit whose link restarts: its answer is no longer owed (R51, R183). -/
def forgetEdit (l : Link) (q : QueuedEdit) : QueuedEdit := if q.link = l then { q with owed := false } else q

/-- A waiting flag request whose link restarts (R14, R183). -/
def forgetFlag (l : Link) (w : WaitingFlag) : WaitingFlag := if l = .sl then { w with owed := false } else w

/-- The answers owed to requests of a link forgotten. -/
def forgetAnswers (l : Link) (s : State) : State :=
  { s with
    table := { s.table with queue := s.table.queue.map (forgetEdit l) }
    solver := { s.solver with waiting := s.solver.waiting.map (forgetFlag l) } }

/-- BUS_OFF (R183): nothing when the port is in it already. -/
def execBusOff (l : Link) (s : State) : Host.Outcome State Fault Refusal :=
  if (portOf s l).state = .active then .next (forgetAnswers l (setPort l (portOff (portOf s l)) s)) else .next s

/-- BUS_OFF_RECOVERY (R183): both queues were emptied at the entry and stay so; the overrun flag and the node numbers
stand. -/
def execBusOffRecovery (l : Link) (s : State) : Host.Outcome State Fault Refusal :=
  .next (setPort l { portOf s l with state := .active } s)

/-- UNKNOWN_REQUEST: a message code that names no request is answered BAD_FIELD (check 1 of R181). -/
def execUnknownRequest (l : Link) (s : State) : Host.Outcome State Fault Refusal :=
  .next (takeRequest (.unknownRequest l) l (fun _ s => s) s)

/-- IDENTIFY (R185). -/
def serveIdentify (l : Link) (_ : Payload) (s : State) : State :=
  reply l .identify .ok
    (.identify Config.vendorCode Config.partCode Config.revision s.part (portOf s l).nodes (portOf s l).overrun)
    (clearOverrun l s)

/-- IDENTIFY (R185). -/
def execIdentify (l : Link) (s : State) : Host.Outcome State Fault Refusal :=
  .next (takeRequest (.identify l) l (serveIdentify l) s)

end Sys2Proof.Machine
end

