-- ==== Sys2Proof/Machine/Store.lean ====
section
/-! DEFINITION. The store at work (R187 to R191): the meanings of SAVE_TIMER_EXPIRY, SAVE_RECORD_READBACK,
SAVE_COMPLETION, KEY_OFF and RESTART. -/

namespace Sys2Proof.Machine

/-! ## The save in flight (R188) -/

/-- SAVE_TIMER_EXPIRY (R187): nothing while the timer is stopped; otherwise its remaining time passes, and its expiry is a
save trigger. It stands stopped until the next save starts (log 24). -/
def execSaveTimerExpiry (s : State) : Host.Outcome State Fault Refusal :=
  match s.store.timer with
  | none => .next s
  | some n =>
    .next (triggerSave { elapse n s with store := { (elapse n s).store with timer := none } })

/-- A save after one more record was written and read back. -/
def saveStep (mismatch : Bool) (v : Save) : Save :=
  { v with todo := v.todo.tail, written := v.written + 1
           mismatches := if mismatch then v.mismatches + 1 else v.mismatches }

/-- The effects of a mismatch: STORE_FAULT READBACK, and the dirty mark of a configuration record set again without a
trigger (R188). -/
def spoilRecord (r : RecordId) (s : State) : State :=
  raiseStoreFault .readback r (if isAccumRecord r then s else markOnly r s)

/-- The record that stands next in a save, written and read back: whole, or spoiled after a mismatch (R188). -/
def writeBack (mismatch : Bool) (v : Save) (r : SnapRecord) (s : State) : State :=
  let s1 : State :=
    { s with store := { s.store with image := putRecord (!mismatch) r s.store.image, save := some (saveStep mismatch v) } }
  if mismatch then spoilRecord (snapId r) s1 else s1

/-- SAVE_RECORD_READBACK (R188): nothing unless a save has a record to write (log 3). -/
def execSaveRecordReadback (mismatch : Bool) (s : State) : Host.Outcome State Fault Refusal :=
  match s.store.save with
  | some v =>
    match v.todo with
    | r :: _ => .next (writeBack mismatch v r s)
    | [] => .next s
  | none => .next s

/-- SAVE_DONE for a save that owes it (R190). -/
def sendSaveDone (v : Save) (s : State) : State :=
  if v.owesDone then sendNotice .ml (.saveDone v.written v.mismatches) s else s

/-- What follows a completed save: the reset of a restart save, a further save, or IDLE (R188, R191). -/
def afterSave (v : Save) (s : State) : State :=
  if v.isRestart then enterLoading .between s
  else if s.store.again then startSave { s with store := { s.store with again := false } }
  else { s with store := { s.store with save := none } }

/-- SAVE_COMPLETION (R188, R190, R191): nothing unless a save has written all its records (log 3). -/
def execSaveCompletion (s : State) : Host.Outcome State Fault Refusal :=
  match s.store.save with
  | some v =>
    match v.todo with
    | [] => .next (afterSave v (sendSaveDone v s))
    | _ :: _ => .next s
  | none => .next s

/-! ## Requests (R189, R191) -/

/-- KEY_OFF at the store: the key-off mark, then the trigger, then the answer with the save state as the trigger left it
(R189). -/
def serveKeyOff (l : Link) (_ : Payload) (s : State) : State :=
  let s1 := triggerSave { s with store := { s.store with keyOff := true } }
  reply l .keyOff .ok (.keyOff s1.store.save.isSome s1.store.again) s1

/-- KEY_OFF (R189). -/
def execKeyOff (l : Link) (s : State) : Host.Outcome State Fault Refusal :=
  .next (takeRequest (.keyOff l) l (serveKeyOff l) s)

/-- A node record placed in the store and marked dirty, when a RESTART carries one (R191; log 23). -/
def placeNodes (n : Option NodesRecord) (s : State) : State :=
  match n with
  | some v => markOnly .nodes { s with store := { s.store with nodes := v } }
  | none => s

/-- A RESTART that is accepted: node record, pending mark, one trigger, and the answer (R191). -/
def acceptRestart (l : Link) (n : Option NodesRecord) (s : State) : State :=
  let s1 := placeNodes n s
  reply l .restart .ok (.restart n) (triggerSave { s1 with store := { s1.store with restartPending := true } })

/-- RESTART at the store (R191). -/
def serveRestart (l : Link) (d : Payload) (s : State) : State :=
  match d with
  | .restart (some v) =>
    if nodesClash v then reply l .restart .badField (.received d) s else acceptRestart l (some v) s
  | .restart none => acceptRestart l none s
  | _ => reply l .restart .badField (.received d) s

/-- RESTART (R191). -/
def execRestart (l : Link) (s : State) : Host.Outcome State Fault Refusal :=
  .next (takeRequest (.restart l) l (serveRestart l) s)

end Sys2Proof.Machine
end

