-- ==== Sys2Proof/Machine/Load.lean ====
section
/-! DEFINITION. Resets and the image load (R186): the meanings of POWER_ON_RESET, LOAD_RECORD_EXAMINED and
LOAD_COMPLETION. -/

namespace Sys2Proof.Machine

/-- POWER_ON_RESET, which stands for brown-out too (R186); the operand says where it cuts off a save in flight (R188;
log 10). -/
def execPowerOnReset (m : WriteMoment) (s : State) : Host.Outcome State Fault Refusal := .next (enterLoading m s)

/-! ## Examining the records (R186, R179) -/

/-- The node numbers that the NODES record gives, in force on the ports from its reading on (R179). -/
def readNodes (s : State) : State :=
  let n := goodOr defaultNodes s.store.image.nodes
  { s with
    ports := ⟨{ s.ports.ml with nodes := n.ml }, { s.ports.cl with nodes := n.cl }, { s.ports.sl with nodes := n.sl }⟩
    store := { s.store with nodes := n } }

/-- One record examined: STORE_FAULT when it fails its check (R174, R186). -/
def examineRecord (r : RecordId) (s : State) : State :=
  let s1 := if failsCheck s.store.image r then raiseStoreFault .load r s else s
  let s2 := if r = .nodes then readNodes s1 else s1
  { s2 with examined := s2.examined + 1 }

/-- The record that the load examines next. -/
def nextRecord (s : State) : Option RecordId := if s.part = .loading then imageOrder[s.examined]? else none

/-- LOAD_RECORD_EXAMINED (R186): nothing outside LOADING, or when every record is examined (log 3). -/
def execLoadRecordExamined (s : State) : Host.Outcome State Fault Refusal :=
  match nextRecord s with
  | some r => .next (examineRecord r s)
  | none => .next s

/-! ## The values the blocks take (step 1 of R186) -/

/-- A zone entry from its record (table of R57). -/
def loadZone : Stored (Option StoredZone) → Zone
  | .good (some z) => if z.active then .active .site z.body else .suspended .site z.body
  | .bad => .faulted
  | _ => .empty

/-- The grade plane from its record (R58). -/
def loadPlane : Stored (Option PlaneBody) → GradePlane
  | .good (some p) => .present .site p
  | .bad => .faulted
  | _ => .absent

/-- The geometry record from the image (R37). -/
def loadGeometry : Stored Geometry → GeometryRecord
  | .good g => .present g
  | .bad => .faulted
  | .missing => .absent

/-- An accumulator from its record (table of R126). -/
def loadAccum : Stored AccumValue → AccumValue
  | .good v => v
  | .bad => ⟨0, true⟩
  | .missing => ⟨0, false⟩

/-- The accumulator block after load: the basis values last handed on are those of the loaded values (R126, R134). -/
def loadDuty (m : Image) : Duty :=
  let d : Duty :=
    { resetDuty with values := sixAccums fun a => loadAccum (accGet m.accumulators a)
                     ratedFuel := goodOr 6000 m.duty }
  { d with handed := sixAccums (basisOf d) }

/-- The solver after load: geometry, solver control, and last good values of 0 saturated into the ranges (R16, R37,
R39). -/
def loadSolver (m : Image) (v : Solver) : Solver :=
  { v with control := goodOr defaultControl m.solver, geometry := loadGeometry m.geometry
           good := saturateGood (geometryFields (loadGeometry m.geometry)) ⟨0, 0, 0, 0, 0⟩ }

/-- Step 1 of R186. -/
def loadRecords (s : State) : State :=
  let m := s.store.image
  { s with
    solver := loadSolver m s.solver
    table := { s.table with zones := m.zones.map loadZone, plane := loadPlane m.grade }
    aid := { s.aid with record := goodOr defaultAid m.aid, table := goodOr defaultTable m.payloadTable }
    ladder := { s.ladder with config := goodOr defaultLadder m.ladder, economy := goodOr defaultEconomy m.economy }
    duty := loadDuty m
    output := { s.output with period := goodOr 20 m.outputPeriod } }

/-! ## Items, ring and SERVICE request (step 2 of R186) -/

/-- An item formed from its stored fields at a basis value, its basis not LOST (R141; log 28). -/
def formItem (f : ItemFields) (basis : Nat) : Item :=
  let t := stateAt f (progress f basis)
  let ack := f.acknowledged && decide (t ≠ .dormant)
  { state := t, fields := some { f with acknowledged := ack }
    nextRepeat := if isDue t ∧ ack = false then firstRepeat f basis else none
    lastNotice := none }

/-- A FAULTED item, its fields known or absent (R141; log 28). -/
def faultedItem (f : Option ItemFields) : Item := { state := .faulted, fields := f, nextRepeat := none, lastNotice := none }

/-- An item from its record (table of R141). -/
def loadItem (d : Duty) : Stored (Option ItemFields) → Item
  | .good (some f) =>
    if (accGet d.values f.basis).lost then faultedItem (some { f with acknowledged := false })
    else formItem f (basisOf d f.basis)
  | .bad => faultedItem none
  | _ => emptyItem

/-- The FAULT notice of a FAULTED item (R151). -/
def faultNotice (s : State) (k : Nat) (i : Item) : Notice :=
  match i.fields with
  | some f => ⟨k, .fault, .faulted, basisNow s f.basis, f.severity⟩
  | none => ⟨k, .fault, .faulted, 0, .critical⟩

/-- Item `k`'s FAULT notice produced, when it is FAULTED (R151). -/
def announceFault (s : State) (k : Nat) : State :=
  if (itemAt s k).state = .faulted then produceNotice (faultNotice s k (itemAt s k)) s else s

/-- Step 2 of R186. -/
def loadSchedule (s : State) : State :=
  let s1 : State :=
    { s with items := s.store.image.items.map (loadItem s.duty)
             ring := resetRing (goodOr ⟨0, 0⟩ s.store.image.watermark) }
  let s2 := (List.range Config.itemCount).foldl announceFault s1
  { s2 with ladder := { s2.ladder with service := serviceWanted s2.items } }

/-! ## Evaluator, ladder and output set (steps 3 to 5 of R186) -/

/-- Step 3 of R186: the evaluator's reset record (R59). -/
def loadEvaluator (s : State) : State :=
  { s with evaluator := { record := fallbackNow s, inside := clearMarks, clear := clearMarks } }

/-- Step 4 of R186: the ladder's target and next rpm (R102). -/
def loadLadder (s : State) : State := retarget s.ladder s

/-- The set that both output sets hold at load completion (R163). -/
def loadedSet (s : State) : OutputSet :=
  { seq := none, scales := s.evaluator.record.scales, binding := s.evaluator.record.binding, fallback := true
    quality := .lost, phase := .idle, target := s.ladder.target, next := s.ladder.next, advise := false }

/-- Step 5 of R186, and the timers that start on entry into WAITING (R163). -/
def loadOutput (s : State) : State :=
  { s with output := { s.output with pending := loadedSet s, active := loadedSet s
                                     periodTimer := some s.output.period, cabTimer := some Config.cabPeriod } }

/-- The entry into WAITING (R186, R187). -/
def enterWaiting (s : State) : State :=
  { s with part := .waiting, store := { s.store with timer := some Config.savePeriod } }

/-- Load completion, whole (R186). -/
def completeLoad (s : State) : State :=
  enterWaiting (loadOutput (loadLadder (loadEvaluator (loadSchedule (loadRecords s)))))

/-- Every record is examined. -/
def loadExamined (s : State) : Bool := decide (s.part = .loading) && decide (imageOrder.length ≤ s.examined)

/-- LOAD_COMPLETION (R186): nothing before every record is examined, or outside LOADING (log 3). -/
def execLoadCompletion (s : State) : Host.Outcome State Fault Refusal :=
  if loadExamined s then .next (completeLoad s) else .next s

end Sys2Proof.Machine
end

