-- ==== Sys2Proof/Machine/Solve.lean ====
section
/-! DEFINITION. The completion of a solve (R11, R12, R17, R21, R72, R175): its hand-offs, its stamps, the waiting flag
requests and edits, and the next solve; the meaning of SOLVE_COMPLETION. -/

namespace Sys2Proof.Machine

/-! ## The pose record (R17, R18, R21) -/

/-- The pose record after a completion: published whole, or only WITHHELD and cue NONE (R17, R21). -/
def poseAfter (l : Latch) (p : PoseResult) (a : AidsResult) (old : PoseRecord) : PoseRecord :=
  if usable p.quality then
    { seq := some l.sample.seq, timestamp := some l.sample.timestamp, points := p.points, psi := some p.psi
      omega := some p.omega, quality := p.quality, causes := p.causes, offset := a.offset, cue := a.cue }
  else { old with quality := p.quality, cue := .none }

/-- The sticky flags after a completion: a DEGRADED solve sets its causes (R18). -/
def stickyAfter (p : PoseResult) (old : CauseMarks) : CauseMarks :=
  if p.quality = .degraded then eitherMarks old p.causes.marks else old

/-- The solver's own part of a completion. -/
def publishPose (l : Latch) (p : PoseResult) (a : AidsResult) (s : State) : State :=
  { s with solver := { s.solver with
      pose := poseAfter l p a s.solver.pose
      sticky := stickyAfter p s.solver.sticky
      lastSeq := some l.sample.seq } }

/-! ## The hand-offs of R11 -/

/-- The evaluator's write into the pending set (R72). -/
def writeEvaluation (l : Latch) (p : PoseResult) (s : State) : State :=
  { s with output := { s.output with pending :=
      { s.output.pending with
        seq := some l.sample.seq, scales := s.evaluator.record.scales, binding := s.evaluator.record.binding
        fallback := s.evaluator.record.fallback, quality := p.quality, phase := s.aid.phase } } }

/-- The period timer has run out and its expiry has not been taken. -/
def expiryDue (s : State) : Bool := decide (s.output.periodTimer = some 0)

/-- An expiry taken between the evaluator's write and the ladder's, when one is due (R165; log 11). -/
def expiryBetween (o : CompletionOrder) (s : State) : State :=
  if o.expiryBetween && expiryDue s then transferOutput s else s

/-- The accumulators' hand-off of a solve (R127). -/
def dutyOf (l : Latch) (p : PoseResult) (a : AidsResult) : DutyHandoff :=
  { interval := p.interval, engineValid := l.sample.valid.engine, engine := l.sample.engine
    fuelValid := l.sample.valid.fuel, fuel := l.sample.fuel, slewChange := p.slewChange
    step := p.causes.marks.step, completed := a.completed }

/-- The value of a channel marked valid. -/
def validValue (valid : Bool) (x : Int) : Option Int := if valid then some x else none

/-- The ladder's hand-off of a solve (R111). -/
def ladderOf (l : Latch) (a : AidsResult) (phase : Phase) : Handoff :=
  { lever := l.sample.lever, travel := l.sample.travel, operator := l.sample.operator, phase := phase
    coolant := validValue l.sample.valid.coolant l.sample.coolant, oil := validValue l.sample.valid.oil l.sample.oil
    boost := a.boost }

/-- The accumulators with the schedule, and the ladder, take their hand-offs in the order the completion has (R115;
log 11). -/
def handOff (o : CompletionOrder) (l : Latch) (p : PoseResult) (a : AidsResult) (s : State) : State :=
  if o.ladderFirst then dutyHandoff (dutyOf l p a) (ladderHandoff (ladderOf l a s.aid.phase) s)
  else ladderHandoff (ladderOf l a s.aid.phase) (dutyHandoff (dutyOf l p a) s)

/-- The SOLVE_FAULT events of a solve (R17). -/
def faultEvents (l : Latch) (p : PoseResult) : List SolveFaultStamp :=
  if p.quality = .withheld then [⟨l.sample.seq, p.causes⟩] else []

/-- The stamps of a solve reach their slots (R175). -/
def raiseStamps (l : Latch) (p : PoseResult) (e : EvalResult) (a : AidsResult) (s : State) : State :=
  { s with stamps := { s.stamps with
      solveFault := raiseAll s.stamps.solveFault (faultEvents l p)
      slewEntry := raiseAll s.stamps.slewEntry e.entries
      limitBreach := raiseAll s.stamps.limitBreach e.breaches
      lateBraking := raiseAll s.stamps.lateBraking e.late
      cycle := raiseAll s.stamps.cycle a.stamp.toList } }

/-- The first completion after a reset moves the part to RUNNING (R11). -/
def enterRunning (s : State) : State := if s.part = .waiting then { s with part := .running } else s

/-! ## The finish of R12 -/

/-- Step 1 of R12: the waiting flag requests, in the order taken; only SL has any (R19). -/
def serveFlags (s : State) : State :=
  let s1 := s.solver.waiting.foldl (performFlag .sl) s
  { s1 with solver := { s1.solver with waiting := [] } }

/-- The edit at the head of the queue removed, applied and answered (R50). -/
def applyHead (s : State) : State :=
  match s.table.queue with
  | q :: rest => performEdit { s with table := { s.table with queue := rest } } q
  | [] => s

/-- Link `l`'s port takes the edit request at the head of its receive queue while the queue is applied: the solve still
counts as in flight, so the edit joins the tail, or is answered BUSY while four still wait (R50; log 29). -/
def takeEditFrame (l : Link) (s : State) : State :=
  match headFrame s l with
  | none => s
  | some f =>
    match requestOf (frameCode f) with
    | some .zoneEdit => takeRequest (takerOf l f) l (serveZoneEdit l) s
    | some .setGrade => takeRequest (takerOf l f) l (serveSetGrade l) s
    | some .setGeometry => takeRequest (takerOf l f) l (serveSetGeometry l) s
    | _ => s

/-- One step of the queue's application (R50; log 29). -/
def editStep (s : State) : EditStep → State
  | .apply => applyHead s
  | .take l => takeEditFrame l s

/-- Every edit that still waits applied and answered, head to tail (R50). -/
def applyQueue (s : State) : State :=
  s.table.queue.foldl performEdit { s with table := { s.table with queue := [] } }

/-- Step 2 of R12: the queued edits, with the requests taken meanwhile (R50). -/
def applyEdits (steps : List EditStep) (s : State) : State := applyQueue (steps.foldl editStep s)

/-- Step 3 of R12: the pending sample begins the next solve, or the solve state becomes IDLE. -/
def nextSolve (s : State) : State :=
  match s.intake.slot with
  | some x => beginSolve x { s with intake := { s.intake with slot := none } }
  | none => { s with solver := { s.solver with solve := .idle } }

/-- The hand-offs of R11. -/
def handOffs (o : CompletionOrder) (l : Latch) (p : PoseResult) (e : EvalResult) (a : AidsResult) (s : State) : State :=
  enterRunning (raiseStamps l p e a
    (handOff o l p a (expiryBetween o (writeEvaluation l p (publishPose l p a s)))))

/-- A completion, whole (R11, R12). Where it writes the pending set more than twice (a SERVICE request that changes, a
rewrite of R77), an expiry falls between no two writes but those that R165 names (DESIGN CHOICE, log 11). -/
def completeSolve (o : CompletionOrder) (l : Latch) (p : PoseResult) (e : EvalResult) (a : AidsResult) (s : State) : State :=
  nextSolve (applyEdits o.edits (serveFlags (handOffs o l p e a s)))

/-- SOLVE_COMPLETION (R11, R12): nothing unless stage AIDS of a solve has ended (log 3). -/
def execSolveCompletion (o : CompletionOrder) (s : State) : Host.Outcome State Fault Refusal :=
  match s.solver.solve with
  | .finished l p e a => .next (completeSolve o l p e a s)
  | _ => .next s

end Sys2Proof.Machine
end

