-- ==== Sys2Proof/Machine/Dispatch.lean ====
section
/-! DEFINITION. One arm per command of spec/opcode_table.json, each a direct call of its meaning. -/

namespace Sys2Proof.Machine

def exec (i : Instr) (s : State) : Host.Outcome State Fault Refusal :=
  match i with
  | .powerOnReset m => Sys2Proof.Machine.execPowerOnReset m s
  | .loadRecordExamined => Sys2Proof.Machine.execLoadRecordExamined s
  | .loadCompletion => Sys2Proof.Machine.execLoadCompletion s
  | .frameReceived l f => Sys2Proof.Machine.execFrameReceived l f s
  | .frameTransmitted l => Sys2Proof.Machine.execFrameTransmitted l s
  | .busOff l => Sys2Proof.Machine.execBusOff l s
  | .busOffRecovery l => Sys2Proof.Machine.execBusOffRecovery l s
  | .unknownRequest l => Sys2Proof.Machine.execUnknownRequest l s
  | .sample l => Sys2Proof.Machine.execSample l s
  | .stagePose => Sys2Proof.Machine.execStagePose s
  | .stageEvaluate => Sys2Proof.Machine.execStageEvaluate s
  | .stageAids => Sys2Proof.Machine.execStageAids s
  | .solveCompletion o => Sys2Proof.Machine.execSolveCompletion o s
  | .staleTimerExpiry => Sys2Proof.Machine.execStaleTimerExpiry s
  | .idleTimerExpiry => Sys2Proof.Machine.execIdleTimerExpiry s
  | .shutdownTimerExpiry => Sys2Proof.Machine.execShutdownTimerExpiry s
  | .durationExpiry => Sys2Proof.Machine.execDurationExpiry s
  | .waitLimitExpiry src => Sys2Proof.Machine.execWaitLimitExpiry src s
  | .outputPeriodExpiry => Sys2Proof.Machine.execOutputPeriodExpiry s
  | .cabViewExpiry => Sys2Proof.Machine.execCabViewExpiry s
  | .saveTimerExpiry => Sys2Proof.Machine.execSaveTimerExpiry s
  | .saveRecordReadback mismatch => Sys2Proof.Machine.execSaveRecordReadback mismatch s
  | .saveCompletion => Sys2Proof.Machine.execSaveCompletion s
  | .keyOff l => Sys2Proof.Machine.execKeyOff l s
  | .regenDemandPlace l => Sys2Proof.Machine.execRegenDemandPlace l s
  | .regenDemandWithdraw l => Sys2Proof.Machine.execRegenDemandWithdraw l s
  | .statusQuery l => Sys2Proof.Machine.execStatusQuery l s
  | .identify l => Sys2Proof.Machine.execIdentify l s
  | .setMode l => Sys2Proof.Machine.execSetMode l s
  | .setModeOff l => Sys2Proof.Machine.execSetModeOff l s
  | .touchIdleOn l => Sys2Proof.Machine.execTouchIdleOn l s
  | .touchIdleOff l => Sys2Proof.Machine.execTouchIdleOff l s
  | .zoneEditWrite l => Sys2Proof.Machine.execZoneEditWrite l s
  | .zoneEditDelete l => Sys2Proof.Machine.execZoneEditDelete l s
  | .zoneEditSuspend l => Sys2Proof.Machine.execZoneEditSuspend l s
  | .zoneEditResume l => Sys2Proof.Machine.execZoneEditResume l s
  | .setGradeSet l => Sys2Proof.Machine.execSetGradeSet l s
  | .setGradeClear l => Sys2Proof.Machine.execSetGradeClear l s
  | .ackItem l => Sys2Proof.Machine.execAckItem l s
  | .ringRead l => Sys2Proof.Machine.execRingRead l s
  | .ringAdvance l => Sys2Proof.Machine.execRingAdvance l s
  | .ringClearLost l => Sys2Proof.Machine.execRingClearLost l s
  | .stampRead l => Sys2Proof.Machine.execStampRead l s
  | .setGeometry l => Sys2Proof.Machine.execSetGeometry l s
  | .setSolver l => Sys2Proof.Machine.execSetSolver l s
  | .readFlags l => Sys2Proof.Machine.execReadFlags l s
  | .clearFlags l => Sys2Proof.Machine.execClearFlags l s
  | .setLadder l => Sys2Proof.Machine.execSetLadder l s
  | .testDemandPlace l => Sys2Proof.Machine.execTestDemandPlace l s
  | .testDemandWithdraw l => Sys2Proof.Machine.execTestDemandWithdraw l s
  | .setEconomy l => Sys2Proof.Machine.execSetEconomy l s
  | .setAidsThresholds l => Sys2Proof.Machine.execSetAidsThresholds l s
  | .setAidsTable l => Sys2Proof.Machine.execSetAidsTable l s
  | .itemDefine l => Sys2Proof.Machine.execItemDefine l s
  | .serviceDone l => Sys2Proof.Machine.execServiceDone l s
  | .itemRetire l => Sys2Proof.Machine.execItemRetire l s
  | .accumRead l => Sys2Proof.Machine.execAccumRead l s
  | .accumSet l => Sys2Proof.Machine.execAccumSet l s
  | .accumSetRatedFuel l => Sys2Proof.Machine.execAccumSetRatedFuel l s
  | .setOutputPeriod l => Sys2Proof.Machine.execSetOutputPeriod l s
  | .restart l => Sys2Proof.Machine.execRestart l s

end Sys2Proof.Machine
end

