-- ==== Sys2Proof/WellFormed.lean ====
section
/-! DEFINITION. When a command's operands can be what the bus or a frame carries: at most 64 data bytes (CAN FD), and
the fields that "take any signed value" within the signed 16-bit field that carries them (spec/00_scope.md 4.3). The
meanings are total on ill-formed operands too; they saturate what no field can carry. -/

namespace Sys2Proof

/-- A value that a signed 16-bit field can carry. -/
def fitsSigned (x : Int) : Bool := decide (-32768 ≤ x) && decide (x ≤ 32767)

/-- Both bounds of a mechanical range fit their fields. -/
def AngleRange.wf (r : AngleRange) : Bool := fitsSigned r.lo && fitsSigned r.hi

/-- The mechanical ranges of a SET_GEOMETRY fit their fields (R36). -/
def Geometry.wf (g : Geometry) : Bool := g.boomRange.wf && g.armRange.wf && g.bucketRange.wf && g.pitchRange.wf

/-- The elevation of a SET_GRADE fits its field (R52). -/
def PlaneBody.wf (p : PlaneBody) : Bool := fitsSigned p.elevation

/-- The curl and dump angles of a SET_AIDS fit their fields (R99). -/
def AidRecord.wf (r : AidRecord) : Bool := fitsSigned r.curl && fitsSigned r.dump

/-- The reach and empty force of a payload point fit their fields (R100). -/
def PayloadPoint.wf (p : PayloadPoint) : Bool := fitsSigned p.reach && fitsSigned p.empty

/-- Every point of a payload table is well formed. -/
def tableWf (t : Eight PayloadPoint) : Bool :=
  t.p0.wf && t.p1.wf && t.p2.wf && t.p3.wf && t.p4.wf && t.p5.wf && t.p6.wf && t.p7.wf

/-- The data of a frame can be carried by a frame. -/
def Payload.wf : Payload → Bool
  | .bytes b => decide (b.length ≤ 64)
  | .setGrade _ p => p.wf
  | .geometry g => g.wf
  | .aidThresholds r => r.wf
  | .aidTable t => tableWf t
  | _ => true

/-- A frame is one that a bus can carry. -/
def RxFrame.wf (f : RxFrame) : Bool := f.data.wf

/-- A command is well formed. -/
def Instr.wf : Instr → Bool
  | .frameReceived _ f => f.wf
  | _ => true

end Sys2Proof
end

