-- ==== Sys2Proof/Safety.lean ====
section
/-! DEFINITION. The terms that claims use: a request offered to its port, an answer and a frame on a port, the forms of
the requests to the ladder, and the invariants of the part, block by block. -/

namespace Sys2Proof.Machine

/-! ## Requests and answers -/

/-- Link `l`'s port can take a frame now: WAITING or RUNNING, ACTIVE, and the frame stands at the head of its receive
queue (R181, R183). -/
def AtHead (s : State) (l : Link) (f : RxFrame) : Prop :=
  s.part ≠ .loading ∧ (portOf s l).state = .active ∧ (portOf s l).rx.head? = some f

/-- A frame of request `r` with data `d`. -/
def IsRequest (f : RxFrame) (r : Request) (d : Payload) : Prop :=
  f.data = d ∧ ∃ i, f.ident = .extended i ∧ identCode i = requestCode r

/-- Link `l`'s port takes request `r` with data `d` now, and the request passes the four checks of R181. -/
def Offered (s : State) (l : Link) (r : Request) (d : Payload) : Prop :=
  hasPlace (portOf s l) = true ∧ s.store.restartPending = false ∧ permitted r l = true ∧ longEnough r d = true ∧
    ∃ f, AtHead s l f ∧ IsRequest f r d

/-- A port whose head frame has been taken and answered at once. -/
def answeredPort (p : Port) (b : TxBody) : Port := { p with rx := p.rx.tail, tx := p.tx ++ [frameOf p b] }

/-- The state with link `l`'s head frame taken and answered, and nothing else changed. -/
def answer (l : Link) (r : Request) (result : Result) (e : Echo) (s : State) : State :=
  setPort l (answeredPort (portOf s l) (.response (requestCode r) result e)) s

/-- A port on which nothing happened but that frames entered its transmit queue, or took another's place there. -/
def OnlySends (p q : Port) : Prop :=
  q.state = p.state ∧ q.nodes = p.nodes ∧ q.rx = p.rx ∧ q.reserved = p.reserved ∧ q.overrun = p.overrun

/-- Every port only sends. -/
def AllOnlySend (s t : State) : Prop := ∀ l, OnlySends (portOf s l) (portOf t l)

/-- Link `l`'s port took its head frame and the answer is the newest frame of its transmit queue; every other port only
sends. -/
def AnsweredLast (s t : State) (l : Link) (b : TxBody) : Prop :=
  (portOf t l).tx.getLast? = some (frameOf (portOf s l) b) ∧
    OnlySends { portOf s l with rx := (portOf s l).rx.tail } (portOf t l) ∧
    ∀ k, k ≠ l → OnlySends (portOf s k) (portOf t k)

/-! ## The forms of a request to the ladder (R119 to R122) -/

/-- `PlaceForm s c l r d src rpm duration wait`: command `c` is the request `r` with data `d` on link `l` that places a
demand of `src` with these values as taken. -/
inductive PlaceForm (s : State) :
    Instr → Link → Request → Payload → Source → Int → Option Nat → Option Nat → Prop
  | mode (m : ModeChoice) (rpm : Int) (h : modePreset s.ladder.config m = some rpm) :
    PlaceForm s (.setMode .cl) .cl .setMode (.setMode (some m)) .mode rpm none none
  | touchIdle :
    PlaceForm s (.touchIdleOn .cl) .cl .touchIdle (.touchIdle (some true)) .touchIdle s.ladder.config.idle none none
  | regen (rpm : Int) (duration wait : Nat) :
    PlaceForm s (.regenDemandPlace .ml) .ml .regenDemand (.regenDemand (some .place) rpm duration wait) .regen
      (clampRpm rpm) (clampSpan 100 duration) (clampSpan 100 wait)
  | test (rpm : Int) (duration wait : Nat) (h : duration ≠ 0) :
    PlaceForm s (.testDemandPlace .sl) .sl .testDemand (.testDemand (some .test) (some .place) rpm duration wait) .test
      (clampRpm rpm) (clampSpan 1000 duration) (clampSpan 100 wait)
  | spare (rpm : Int) (duration wait : Nat) :
    PlaceForm s (.testDemandPlace .sl) .sl .testDemand (.testDemand (some .spare) (some .place) rpm duration wait)
      .spare (clampRpm rpm) (clampSpan 100 duration) (clampSpan 100 wait)

/-- `WithdrawForm c l r d src`: command `c` is the request `r` with data `d` on link `l` that withdraws the demand of
`src`. -/
inductive WithdrawForm : Instr → Link → Request → Payload → Source → Prop
  | mode : WithdrawForm (.setModeOff .cl) .cl .setMode (.setMode (some .off)) .mode
  | touchIdle : WithdrawForm (.touchIdleOff .cl) .cl .touchIdle (.touchIdle (some false)) .touchIdle
  | regen (rpm : Int) (duration wait : Nat) :
    WithdrawForm (.regenDemandWithdraw .ml) .ml .regenDemand (.regenDemand (some .withdraw) rpm duration wait) .regen
  | test (rpm : Int) (duration wait : Nat) :
    WithdrawForm (.testDemandWithdraw .sl) .sl .testDemand
      (.testDemand (some .test) (some .withdraw) rpm duration wait) .test
  | spare (rpm : Int) (duration wait : Nat) :
    WithdrawForm (.testDemandWithdraw .sl) .sl .testDemand
      (.testDemand (some .spare) (some .withdraw) rpm duration wait) .spare

/-! ## The forms of an edit (R43, R52, R36) -/

/-- `EditForm c l r d e`: command `c` is the request `r` with data `d` on link `l` that passes its taking checks and asks
for the edit `e`, its values as clamped. -/
inductive EditForm : Instr → Link → Request → Payload → Edit → Prop
  | write (l : Link) (b : List Byte) (z : ZoneBody) (h : takeZoneEdit (.bytes b) = some (byteAt b 0, .write z)) :
    EditForm (.zoneEditWrite l) l .zoneEdit (.bytes b) (.zone (byteAt b 0) (.write z))
  | delete (l : Link) (b : List Byte) (h : takeZoneEdit (.bytes b) = some (byteAt b 0, .delete)) :
    EditForm (.zoneEditDelete l) l .zoneEdit (.bytes b) (.zone (byteAt b 0) .delete)
  | suspend (l : Link) (b : List Byte) (h : takeZoneEdit (.bytes b) = some (byteAt b 0, .suspend)) :
    EditForm (.zoneEditSuspend l) l .zoneEdit (.bytes b) (.zone (byteAt b 0) .suspend)
  | resume (l : Link) (b : List Byte) (h : takeZoneEdit (.bytes b) = some (byteAt b 0, .resume)) :
    EditForm (.zoneEditResume l) l .zoneEdit (.bytes b) (.zone (byteAt b 0) .resume)
  | set (l : Link) (p : PlaneBody) :
    EditForm (.setGradeSet l) l .setGrade (.setGrade (some .set) p) (.grade (.set (clampPlane p)))
  | clear (l : Link) (p : PlaneBody) :
    EditForm (.setGradeClear l) l .setGrade (.setGrade (some .clear) p) (.grade .clear)
  | geometry (l : Link) (g : Geometry) (h : rangesCrossed g = false) :
    EditForm (.setGeometry l) l .setGeometry (.geometry g) (.geometry (clampGeometry g))

/-- `FlagForm c r d q`: command `c` is the request `r` with data `d` on SL that passes its taking checks and asks for the
flag work `q` (R19, R20). -/
inductive FlagForm : Instr → Request → Payload → FlagRequest → Prop
  | read (d : Payload) : FlagForm (.readFlags .sl) .readFlags d .read
  | clear (named : CauseMarks) : FlagForm (.clearFlags .sl) .clearFlags (.clearFlags named false) (.clear named)

/-- The answer to a flag request performed now (R19, R20). -/
def flagEcho (v : Solver) : FlagRequest → Echo
  | .read => .flags v.sticky v.lastCauses v.lastSeq
  | .clear named => .cleared named (clearNamed v.sticky named)

/-- The sticky flags after a flag request (R19, R20). -/
def stickyFrom (m : CauseMarks) : FlagRequest → CauseMarks
  | .read => m
  | .clear named => clearNamed m named

/-! ## Commands by what they are -/

/-- A slot's visible overflow (R171). -/
def slotVisible (t : Stamps) : StampKind → Bool
  | .slewEntry => t.slewEntry.visible
  | .limitBreach => t.limitBreach.visible
  | .lateBraking => t.lateBraking.visible
  | .solveFault => t.solveFault.visible
  | .sampleLoss => t.sampleLoss.visible
  | .cycle => t.cycle.visible
  | .storeFault => t.storeFault.visible

/-- A command that resets the part or belongs to its image load: POWER_ON_RESET, LOAD_COMPLETION, and the completion of a
restart save (R186, R191). -/
def resets (c : Instr) (s : State) : Bool :=
  match c with
  | .powerOnReset _ => true
  | .loadCompletion => true
  | .saveCompletion =>
    match s.store.save with
    | some v => v.isRestart
    | none => false
  | _ => false

/-- An edit of zone entry `n`. -/
def editsZone (n : Nat) : Edit → Bool
  | .zone k _ => decide (k = n)
  | _ => false

/-- An edit of the grade plane. -/
def editsPlane : Edit → Bool
  | .grade _ => true
  | _ => false

/-- A received frame asks for an edit of kind `kind`. -/
def asksEdit (kind : Edit → Bool) (f : RxFrame) : Bool :=
  match requestOf (frameCode f), f.data with
  | some .zoneEdit, d => (takeZoneEdit d).any fun x => kind (.zone x.1 x.2)
  | some .setGrade, .setGrade a p => (takePlane a p).any fun x => kind (.grade x)
  | _, _ => false

/-- A request of kind `kind` taken on the service link has its effect in this command: it stands at SL's head, or waits
in the edit queue of the solve that completes, or waits in SL's receive queue and is taken while that queue is applied
(R45, R50). -/
def serviceEdit (kind : Edit → Bool) (c : Instr) (s : State) : Prop :=
  match c with
  | .zoneEditWrite .sl => True
  | .zoneEditDelete .sl => True
  | .zoneEditSuspend .sl => True
  | .zoneEditResume .sl => True
  | .setGradeSet .sl => True
  | .setGradeClear .sl => True
  | .solveCompletion o => (∃ q ∈ s.table.queue, q.link = .sl ∧ kind q.edit = true) ∨
      EditStep.take .sl ∈ o.edits ∧ ∃ f ∈ (portOf s .sl).rx, asksEdit kind f = true
  | _ => False

/-! ## Invariants -/

/-- The numbered tables keep their sizes: 32 zones, 33 marks of each kind, 24 items, 32 ring positions, and the image's
32 zone and 24 item records. -/
def ShapeInv (s : State) : Prop :=
  s.table.zones.length = 32 ∧ s.evaluator.inside.length = 33 ∧ s.evaluator.clear.length = 33 ∧ s.items.length = 24 ∧
    s.ring.slots.length = 32 ∧ s.store.image.zones.length = 32 ∧ s.store.image.items.length = 24

/-- The answers that waiting requests of a link are owed: queued edits, and on SL flag requests. -/
def owedOn (s : State) (l : Link) : Nat :=
  (s.table.queue.filter fun q => decide (q.link = l) && q.owed).length +
    if l = .sl then (s.solver.waiting.filter fun w => w.owed).length else 0

/-- One port's queues: at most 8 frames received, at most 8 places taken, one place reserved for each answer owed, and
empty in BUS_OFF (R180 to R183). -/
def PortInv (s : State) (l : Link) : Prop :=
  (portOf s l).rx.length ≤ 8 ∧ (portOf s l).tx.length + (portOf s l).reserved ≤ 8 ∧
    (portOf s l).reserved = owedOn s l ∧
    ((portOf s l).state = .busOff → (portOf s l).rx = [] ∧ (portOf s l).tx = [] ∧ (portOf s l).reserved = 0)

/-- The queues of the part hold what they may: the ports', at most four edits and four flag requests, and nothing waits
for a solve while none is in flight (R19, R50, R4). -/
def QueueInv (s : State) : Prop :=
  (∀ l, PortInv s l) ∧ s.table.queue.length ≤ 4 ∧ s.solver.waiting.length ≤ 4 ∧
    (s.solver.solve = .idle → s.table.queue = [] ∧ s.solver.waiting = [] ∧ s.intake.slot = none)

/-- A scale. -/
def IsScale (x : Int) : Prop := 0 ≤ x ∧ x ≤ 1000

/-- Six scales. -/
def AreScales (v : Six Int) : Prop := ∀ a, IsScale (actGet v a)

/-- An engine speed, 700 to 2100 rpm. -/
def IsRpm (x : Int) : Prop := 700 ≤ x ∧ x ≤ 2100

/-- A geometry record whose scale fields lie in their range. -/
def GeometryOk (g : Geometry) : Prop := AreScales g.fallback ∧ IsScale g.escape

/-- The geometry that a solve in flight has latched. -/
def latchedGeometry : Solve → Option Geometry
  | .pose l => some (geometryFields l.geometry)
  | .evaluate l _ => some (geometryFields l.geometry)
  | _ => none

/-- A snapshot record's geometry. -/
def snapGeometry : SnapRecord → Option Geometry
  | .geometry g => some g
  | _ => none

/-- A queued edit's geometry. -/
def editGeometry : Edit → Option Geometry
  | .geometry g => some g
  | _ => none

/-- The geometry an image holds. -/
def storedGeometry : Stored Geometry → Option Geometry
  | .good g => some g
  | _ => none

/-- The records that a save in flight has still to write. -/
def todoOf : Option Save → List SnapRecord
  | some v => v.todo
  | none => []

/-- Every geometry record in the part has its scales in range: the one in force, the latched, the queued, the stored and
the one a save has snapshotted. -/
def GeometryInv (s : State) : Prop :=
  GeometryOk (geometryFields s.solver.geometry) ∧
    (∀ g, latchedGeometry s.solver.solve = some g → GeometryOk g) ∧
    (∀ q ∈ s.table.queue, ∀ g, editGeometry q.edit = some g → GeometryOk g) ∧
    (∀ g, storedGeometry s.store.image.geometry = some g → GeometryOk g) ∧
    (∀ r ∈ todoOf s.store.save, ∀ g, snapGeometry r = some g → GeometryOk g)

/-- One output set's scales and speeds lie in their ranges (table of spec/09 section 9.1). -/
def SetInv (o : OutputSet) : Prop := AreScales o.scales ∧ IsRpm o.target ∧ (o.next = 0 ∨ IsRpm o.next)

/-- Both output sets hold scales in 0 to 1000 and engine speeds in 700 to 2100, and so do what feeds them (R71, R118,
R164). -/
def OutputInv (s : State) : Prop :=
  GeometryInv s ∧ AreScales s.evaluator.record.scales ∧ SetInv s.output.pending ∧ SetInv s.output.active

/-- While the image loads no block acts: each holds its reset values, and no save and no timer runs (R186). -/
def LoadingInv (s : State) : Prop :=
  s.part = .loading →
    s.intake = resetIntake ∧ s.solver = resetSolver ∧ s.table = resetTable ∧ s.evaluator = resetEvaluator ∧
      s.aid = resetAid ∧ s.ladder = resetLadder ∧ s.duty = resetDuty ∧ s.items = resetItems ∧
      s.ring = resetRing ⟨0, 0⟩ ∧ s.output = resetOutput ∧
      s.store = { resetStore s.store.image with nodes := s.store.nodes }

/-- The records of a ladder: in the order of R104, at most one for each source, each under the placement counter and at
its source's level; only the first leads, and what leads has no wait limit and no wait-expired mark (R103 to R106). -/
def RecordsInv (L : Ladder) : Prop :=
  L.records.Pairwise (fun a b => standsAhead L.config a b = true ∧ a.source ≠ b.source ∧ a.stamp ≠ b.stamp) ∧
    (∀ d ∈ L.records, d.stamp < L.counter ∧ d.level = srcGet L.config.levels d.source) ∧
    L.counter ≤ Config.counterMax ∧
    (∀ d ∈ L.records.tail, d.leading = false) ∧
    (∀ d ∈ L.records.head?, d.leading = true ∧ d.wait = none ∧ d.expired = false)

/-- The ladder's records stand as they must, and the ladder's target and next rpm are those R118 forms from them. -/
def LadderInv (s : State) : Prop :=
  LoadingInv s ∧ RecordsInv s.ladder ∧ s.ladder.target = formTarget s.ladder ∧ s.ladder.next = formNext s.ladder ∧
    s.output.pending.target = s.ladder.target ∧ s.output.pending.next = s.ladder.next ∧
    s.output.pending.advise = s.ladder.advise

/-- One reader's cursor: its unread positions end just before the put index (R153). -/
def ReaderInv (g : Ring) (x : ReaderState) : Prop :=
  x.get < 32 ∧ x.unread ≤ 32 ∧ (x.get + x.unread) % 32 = g.put

/-- Position `p` is held: it lies among the held-count positions that end just before the put index (R153). -/
def isHeld (g : Ring) (p : Nat) : Bool := (List.range (heldCount g)).any fun k => decide (ringDistance g.put (k + 1) = p)

/-- Position `p` holds a notice. -/
def holdsNotice (g : Ring) (p : Nat) : Bool := (g.slots.getD p none).isSome

/-- The item numbers whose last_notice_pos names a position. -/
def namers (p : Nat) (items : List Item) : List Nat :=
  (List.range items.length).filter fun k => namesPosition p (items.getD k emptyItem)

/-- The ring and the items that point into it: the cursors agree with the put index, exactly the held positions hold a
notice, an item's last_notice_pos names a held position that no other item names, and a RETIRING item has one (R150,
R153, R155). -/
def RingInv (s : State) : Prop :=
  s.ring.put < 32 ∧ s.ring.slots.length = 32 ∧ ReaderInv s.ring s.ring.cab ∧ ReaderInv s.ring s.ring.service ∧
    (∀ p < 32, holdsNotice s.ring p = isHeld s.ring p) ∧
    (∀ i ∈ s.items, ∀ p, i.lastNotice = some p → p < 32 ∧ isHeld s.ring p = true) ∧
    (∀ p < 32, (namers p s.items).length ≤ 1) ∧
    (∀ i ∈ s.items, i.state = .retiring → i.lastNotice.isSome = true) ∧
    (∀ i ∈ s.items, i.state = .empty → i.lastNotice = none)

/-- The stamp slot is consistent: an EMPTY slot's hidden overflow is clear (R171). -/
def SlotOk {α : Type} (x : Slot α) : Prop := x.held = none → x.hidden = false

/-- Every stamp slot is consistent. -/
def StampInv (s : State) : Prop :=
  SlotOk s.stamps.slewEntry ∧ SlotOk s.stamps.limitBreach ∧ SlotOk s.stamps.lateBraking ∧ SlotOk s.stamps.solveFault ∧
    SlotOk s.stamps.sampleLoss ∧ SlotOk s.stamps.cycle ∧ SlotOk s.stamps.storeFault

/-- The ladder holds a DIG_BOOST record. -/
def boosted (s : State) : Prop := demandOf .digBoost s.ladder.records ≠ none

/-- What the solve in flight says of cycle phase and boost before its completion: stage AIDS of a usable solve may have
moved the phase; that of a WITHHELD solve has returned it to IDLE and asks for the withdrawal. -/
def phaseBefore (s : State) : Prop :=
  match s.solver.solve with
  | .finished _ p _ a => usable p.quality = true ∨ (s.aid.phase = .idle ∧ a.boost = some .withdraw)
  | _ => usable s.solver.pose.quality = true ∨ s.aid.phase = .idle

/-- Whenever pose quality is WITHHELD or LOST the cycle phase is IDLE and the ladder holds no DIG_BOOST record (R88),
seen between completions; `phaseBefore` says what a solve in flight may have changed ahead of its completion. -/
def BoostInv (s : State) : Prop := phaseBefore s ∧ (usable s.solver.pose.quality = true ∨ ¬ boosted s)

/-! ## Terms of the envelope and of the frames' layouts -/

/-- The record that R69 gives for a table and a geometry record: every actuator of the constrained set at its fallback
scale and bound by the lowest-numbered entry that constrains it, every other actuator free at 1000, FALLBACK set. -/
def IsUnusableRecord (t : EnvTable) (g : Geometry) (r : EvalRecord) : Prop :=
  r.fallback = true ∧
    ∀ a : Actuator,
      ((∀ n ≤ 32, constrains t n a = false) → actGet r.scales a = 1000 ∧ actGet r.binding a = none) ∧
        ∀ n ≤ 32, constrains t n a = true → (∀ k < n, constrains t k a = false) →
          actGet r.scales a = actGet g.fallback a ∧ actGet r.binding a = some n

/-- An applied edit's effect on the evaluator's record and the pending set: none while the pose is GOOD or DEGRADED; else
the record holds what R69 gives for table and geometry as edited, and where it had to change FALLBACK is set and the
evaluator's scales, binding zones and FALLBACK are written into the pending set (R77). -/
def RewrittenIfUnusable (s t : State) (g : Geometry) : Prop :=
  (usable s.solver.pose.quality = true → t.evaluator.record = s.evaluator.record ∧ t.output = s.output) ∧
    (usable s.solver.pose.quality = false →
      IsUnusableRecord t.table g { t.evaluator.record with fallback := true } ∧
        (t.evaluator.record = s.evaluator.record ∧ t.output = s.output ∨
          t.evaluator.record.fallback = true ∧
            t.output = { s.output with pending := { s.output.pending with
              scales := t.evaluator.record.scales, binding := t.evaluator.record.binding, fallback := true } }))

/-- The actuators other than the two of the slew. -/
def isFront : Actuator → Bool
  | .slewCcw => false
  | .slewCw => false
  | _ => true

/-- The fields of a sample lie in the ranges their frame fields and the limits of R181 give. -/
def SampleOk (x : Sample) : Prop :=
  x.seq < 256 ∧ x.timestamp < 65536 ∧ fitsSigned x.boomPrimary = true ∧ fitsSigned x.boomSecondary = true ∧
    fitsSigned x.arm = true ∧ fitsSigned x.bucket = true ∧ (0 ≤ x.slew ∧ x.slew ≤ 65535) ∧ fitsSigned x.pitch = true ∧
    fitsSigned x.roll = true ∧ (0 ≤ x.boomHead ∧ x.boomHead ≤ 65000) ∧ (0 ≤ x.boomRod ∧ x.boomRod ≤ 65000) ∧
    (0 ≤ x.armHead ∧ x.armHead ≤ 65000) ∧ (0 ≤ x.engine ∧ x.engine ≤ 65535) ∧ (0 ≤ x.fuel ∧ x.fuel ≤ 10000) ∧
    (-40 ≤ x.coolant ∧ x.coolant ≤ 150) ∧ (-40 ≤ x.oil ∧ x.oil ≤ 150)

/-- The fields of a zone body lie in the ranges their frame fields give. -/
def ZoneFits (b : ZoneBody) : Prop :=
  (0 ≤ b.start ∧ b.start ≤ 65535) ∧ (0 ≤ b.stop ∧ b.stop ≤ 65535) ∧ fitsSigned b.limit = true ∧
    (0 ≤ b.margin ∧ b.margin ≤ 65535)

/-- A cause whose enable is set is raised. -/
def EnabledRaised (c en : CauseMarks) : Prop :=
  (c.range = true ∧ en.range = true) ∨ (c.tilt = true ∧ en.tilt = true) ∨ (c.disagree = true ∧ en.disagree = true) ∨
    (c.step = true ∧ en.step = true) ∨ (c.overflow = true ∧ en.overflow = true)

/-- One channel's last good value after stage POSE: the received value where it is valid and in range, else the value as
it was (R16). -/
def GoodKept (valid : Bool) (r : AngleRange) (x old new : Int) : Prop :=
  (valid = true ∧ r.lo ≤ x ∧ x ≤ r.hi → new = x) ∧ (¬(valid = true ∧ r.lo ≤ x ∧ x ≤ r.hi) → new = old)

/-- A pose that an evaluation may use: GOOD or DEGRADED, with its points. -/
def UsablePose (p : PoseResult) (pts : Points) : Prop :=
  (p.quality = .good ∨ p.quality = .degraded) ∧ p.points = some pts

/-- The sums, counts and mark of the loaded swing in `v` are those in `u`. -/
def SameSums (u v : AidUnit) : Prop :=
  v.loaded = u.loaded ∧ v.forceSum = u.forceSum ∧ v.reachSum = u.reachSum ∧ v.averaged = u.averaged ∧
    v.pressureInvalid = u.pressureInvalid

/-- The aid unit with no sums, counts or mark of a loaded swing (R90). -/
def noSums (u : AidUnit) : AidUnit :=
  { u with loaded := 0, forceSum := 0, reachSum := 0, averaged := 0, pressureInvalid := false }

/-- `v` holds what a loaded solve of sample `x` with published reach `reach` makes of the sums in `u` (R91, R92). -/
def LoadedSolve (r : AidRecord) (x : Sample) (reach : Int) (u v : AidUnit) : Prop :=
  let force := max (-32767) (min 32767 (Int.tdiv (x.boomHead * r.headArea - x.boomRod * r.rodArea) 1000000))
  let sound := x.valid.boomHead = true ∧ x.valid.boomRod = true ∧ x.valid.armHead = true
  v.loaded = min 255 (u.loaded + 1) ∧
    (v.loaded ≤ r.settle → SameSums { u with loaded := v.loaded } v) ∧
    (r.settle < v.loaded →
      (sound → v.pressureInvalid = u.pressureInvalid) ∧ (¬sound → v.pressureInvalid = true) ∧
      (u.averaged < 65535 → v.forceSum = u.forceSum + force ∧ v.reachSum = u.reachSum + reach ∧
        v.averaged = u.averaged + 1) ∧
      (65535 ≤ u.averaged → v.forceSum = u.forceSum ∧ v.reachSum = u.reachSum ∧ v.averaged = u.averaged))

/-- `y` is the value that a strictly rising payload table gives a field at a reach: the first point's below the table, the
last point's at or beyond its end, else interpolated between the points around the reach (R94). -/
def AtReach (field : PayloadPoint → Int) (t : Eight PayloadPoint) (reach y : Int) : Prop :=
  (reach < t.p0.reach → y = field t.p0) ∧ (t.p7.reach ≤ reach → y = field t.p7) ∧
    ∀ a b, (a, b) ∈ [(t.p0, t.p1), (t.p1, t.p2), (t.p2, t.p3), (t.p3, t.p4), (t.p4, t.p5), (t.p5, t.p6), (t.p6, t.p7)] →
      a.reach ≤ reach → reach < b.reach →
      y = field a + Int.tdiv ((field b - field a) * (reach - a.reach)) (b.reach - a.reach)

/-- A list of records numbered in strictly ascending order. -/
def Ascending {α : Type} (number : α → Nat) (xs : List α) : Prop := xs.Pairwise fun a b => number a < number b

/-- `t` differs from `s` at most in its ladder, in the ladder's group of the pending set, which holds what the ladder
says, and in its ports. -/
def LadderFrame (s t : State) : Prop :=
  t = { s with
        ports := t.ports
        ladder := { s.ladder with
          records := t.ladder.records, counter := t.ladder.counter, shutdownTimer := t.ladder.shutdownTimer
          advise := t.ladder.advise, target := t.ladder.target, next := t.ladder.next }
        output := { s.output with pending := { s.output.pending with
          target := t.ladder.target, next := t.ladder.next, advise := t.ladder.advise } } } ∧
    t.ladder.target = formTarget t.ladder ∧ t.ladder.next = formNext t.ladder

/-- A ceiling of the ladder is present with this value (R116). -/
def CeilingPresent (L : Ladder) (c : Int) : Prop :=
  (L.economy.fleetCap ≠ 0 ∧ c = L.economy.fleetCap) ∨ (L.thermal = .stage1 ∧ c = L.economy.c1) ∨
    (L.thermal = .stage2 ∧ c = L.economy.c2) ∨ (L.service = true ∧ c = L.economy.derate)

/-- `x` is the rpm that steps 2 to 4 of R118 form from a base: raised to a present floor, lowered to the least present
ceiling, clamped. -/
def BoundedRpm (L : Ladder) (base x : Int) : Prop :=
  let raised := if L.warmup then max L.economy.warmFloor base else base
  (∀ c, CeilingPresent L c → (∀ k, CeilingPresent L k → c ≤ k) → x = max 700 (min 2100 (min c raised))) ∧
    ((∀ c, ¬CeilingPresent L c) → x = max 700 (min 2100 raised))

/-- Every record of source other than `src` in `t` is one of `s`, with its level, rpm, duration, stamp order and origin. -/
def OthersFrom (src : Source) (s t : State) : Prop :=
  ∀ y ∈ t.ladder.records, y.source ≠ src →
    ∃ old ∈ s.ladder.records, old.source = y.source ∧ old.level = y.level ∧ old.rpm = y.rpm ∧
      old.duration = y.duration ∧ old.origin = y.origin

/-- No record of a source other than `src` is lost, but one that is marked wait-expired or has no duration left. -/
def OthersStay (src : Source) (s t : State) : Prop :=
  ∀ old ∈ s.ladder.records, old.source ≠ src → old.expired = false → old.duration ≠ some 0 →
    demandOf old.source t.ladder.records ≠ none

end Sys2Proof.Machine
end

