-- ==== Sys2Proof/Certificates/Slice0/Obligations.lean ====
section
/-! DEFINITION. The statements for the provers. Each says what a rule of spec/ says the part does; a statement that rests
on a choice of the model names its log entry. -/

section
open Sys2Proof Sys2Proof.Machine

/-! ## Steps, reset and load -/

/-- A step takes the command at the front of the queue and runs it on the state with the queue's rest (log 1). -/
def Obligations.StepRunsFrontCommand : Prop :=
  ∀ (c : Instr) (rest : List Instr) (s : State), s.pending = c :: rest → step s = exec c { s with pending := rest }

/-- Every command answers a next state, and none touches the queue of waiting commands (log 1, log 3). -/
def Obligations.EveryCommandKeepsQueue : Prop :=
  ∀ (c : Instr) (s : State), ∃ t, exec c s = .next t ∧ t.pending = s.pending

/-- On an empty queue a step lets one millisecond pass: every running timer runs down by 1, the active demand's duration
and every wait limit among them, and nothing else changes (the model's choice, log 2). -/
def Obligations.IdleStepPassesOneMillisecond : Prop :=
  ∀ s : State, s.pending = [] →
    step s = .next
      { s with
        intake := { s.intake with stale := s.intake.stale.map fun t => { t with remaining := t.remaining - 1 } }
        ladder := { s.ladder with
          records := s.ladder.records.map fun d =>
            { d with wait := d.wait.map fun n => n - 1
                     duration := if d.leading then d.duration.map fun n => n - 1 else d.duration }
          idleTimer := s.ladder.idleTimer.map fun n => n - 1
          shutdownTimer := s.ladder.shutdownTimer.map fun n => n - 1 }
        output := { s.output with
          periodTimer := s.output.periodTimer.map fun n => n - 1
          cabTimer := s.output.cabTimer.map fun n => n - 1 }
        store := { s.store with timer := s.store.timer.map fun n => n - 1 } }

/-- POWER_ON_RESET enters LOADING with every block at its reset values, whatever was in flight (R14, R172, R186). The
image is kept, but for the record whose writing the reset cuts off, or whose writing it finds done (R188, log 10). What
most blocks and the node numbers hold during LOADING is the model's choice (log 8). -/
def Obligations.PowerOnResetEntersLoading : Prop :=
  (State.reset.part = .loading ∧ State.reset.solver.solve = .idle ∧ State.reset.solver.sticky = noMarks ∧
    State.reset.solver.lastCauses = noCauses ∧ State.reset.solver.pose.quality = .lost ∧
    State.reset.intake.state = .empty ∧ State.reset.intake.lastTaken = none ∧ State.reset.intake.slot = none ∧
    State.reset.intake.restartMark = true ∧ State.reset.table.queue = [] ∧ State.reset.solver.waiting = [] ∧
    State.reset.stamps = resetStamps ∧ State.reset.ladder.records = [] ∧ State.reset.store.dirty = [] ∧
    State.reset.store.save = none ∧ State.reset.store.again = false ∧ State.reset.store.keyOff = false ∧
    State.reset.store.restartPending = false) ∧
  ∀ (m : WriteMoment) (s : State), ∃ img : Image,
    exec (.powerOnReset m) s = .next
      { State.reset with store := { State.reset.store with image := img }, pending := s.pending } ∧
    (m = .between ∨ nextWrite s.store = none → img = s.store.image) ∧
    ∀ r, nextWrite s.store = some r →
      (m = .during → img = putRecord false r s.store.image) ∧ (m = .written → img = putRecord true r s.store.image)

/-- LOAD_RECORD_EXAMINED examines the next record of the image table: a record that fails its check raises STORE_FAULT
with occasion LOAD, and the NODES record puts its node numbers, or the defaults, in force on the ports (R174, R179,
R186). -/
def Obligations.LoadExaminesNextRecord : Prop :=
  ∀ (s : State) (r : RecordId), s.part = .loading → imageOrder[s.examined]? = some r →
    let slot := if failsCheck s.store.image r then raiseSlot s.stamps.storeFault ⟨.load, r⟩ else s.stamps.storeFault
    let stamps := { s.stamps with storeFault := slot }
    (r ≠ .nodes →
      exec .loadRecordExamined s = .next { s with examined := s.examined + 1, stamps := stamps }) ∧
    (r = .nodes → ∀ n : NodesRecord,
      (s.store.image.nodes = .good n ∨
        (s.store.image.nodes = .missing ∨ s.store.image.nodes = .bad) ∧ n = ⟨⟨40, 10⟩, ⟨40, 20⟩, ⟨40, 30⟩⟩) →
      exec .loadRecordExamined s = .next
        { s with
          examined := s.examined + 1, stamps := stamps
          ports := ⟨{ s.ports.ml with nodes := n.ml }, { s.ports.cl with nodes := n.cl },
            { s.ports.sl with nodes := n.sl }⟩
          store := { s.store with nodes := n } })

/-- LOAD_COMPLETION gives each block its records: zones, plane, geometry, the configuration records, the accumulators
and the items with their next_repeat, by the failed-check outcome of each record (R37, R39, R57, R58, R80, R102, R126,
R141, R153). Each FAULTED item then produces one FAULT notice, in ascending item number, in the empty ring (R151), and
the SERVICE request stands exactly while a CRITICAL item is OVERDUE or FAULTED (R145). The last good values are 0,
saturated into the mechanical ranges of the geometry loaded, and 0 for slew and without a PRESENT geometry (R16, R35).
That acknowledged of a FAULTED item with known fields is clear, and that a next_repeat past the range is absent, is
the model's reading (log 28). -/
def Obligations.LoadCompletionFillsBlocks : Prop :=
  ∀ s : State, s.part = .loading → 73 ≤ s.examined → s.store.image.zones.length = 32 →
    s.store.image.items.length = 24 →
    ∃ t, exec .loadCompletion s = .next t ∧ t.part = .waiting ∧
      (∀ i < 32,
        (s.store.image.zones.getD i .missing = .missing ∨ s.store.image.zones.getD i .missing = .good none →
          zoneAt t i = .empty) ∧
        (s.store.image.zones.getD i .missing = .bad → zoneAt t i = .faulted) ∧
        ∀ b, (s.store.image.zones.getD i .missing = .good (some ⟨true, b⟩) → zoneAt t i = .active .site b) ∧
          (s.store.image.zones.getD i .missing = .good (some ⟨false, b⟩) → zoneAt t i = .suspended .site b)) ∧
      ((s.store.image.grade = .missing ∨ s.store.image.grade = .good none → t.table.plane = .absent) ∧
        (s.store.image.grade = .bad → t.table.plane = .faulted) ∧
        ∀ b, s.store.image.grade = .good (some b) → t.table.plane = .present .site b) ∧
      ((s.store.image.geometry = .missing → t.solver.geometry = .absent) ∧
        (s.store.image.geometry = .bad → t.solver.geometry = .faulted) ∧
        ∀ g, s.store.image.geometry = .good g → t.solver.geometry = .present g) ∧
      (let zeroIn := fun r : AngleRange => if 0 < r.lo then r.lo else if r.hi < 0 then r.hi else 0
       (∀ g, s.store.image.geometry = .good g → t.solver.good =
        { boom := zeroIn g.boomRange, arm := zeroIn g.armRange, bucket := zeroIn g.bucketRange
          pitch := zeroIn g.pitchRange, slew := 0 }) ∧
       (s.store.image.geometry = .missing ∨ s.store.image.geometry = .bad → t.solver.good = ⟨0, 0, 0, 0, 0⟩)) ∧
      ((∀ x, s.store.image.solver = .good x → t.solver.control = x) ∧
        (s.store.image.solver = .missing ∨ s.store.image.solver = .bad → t.solver.control = defaultControl)) ∧
      ((∀ x, s.store.image.aid = .good x → t.aid.record = x) ∧
        (s.store.image.aid = .missing ∨ s.store.image.aid = .bad → t.aid.record = defaultAid)) ∧
      ((∀ x, s.store.image.payloadTable = .good x → t.aid.table = x) ∧
        (s.store.image.payloadTable = .missing ∨ s.store.image.payloadTable = .bad → t.aid.table = defaultTable)) ∧
      ((∀ x, s.store.image.ladder = .good x → t.ladder.config = x) ∧
        (s.store.image.ladder = .missing ∨ s.store.image.ladder = .bad → t.ladder.config = defaultLadder)) ∧
      ((∀ x, s.store.image.economy = .good x → t.ladder.economy = x) ∧
        (s.store.image.economy = .missing ∨ s.store.image.economy = .bad → t.ladder.economy = defaultEconomy)) ∧
      ((∀ x, s.store.image.duty = .good x → t.duty.ratedFuel = x) ∧
        (s.store.image.duty = .missing ∨ s.store.image.duty = .bad → t.duty.ratedFuel = 6000)) ∧
      (t.duty.engineMs = 0 ∧ t.duty.loadMs = 0 ∧ t.duty.loadQuarter = 0 ∧ t.duty.fuelRest = 0 ∧ t.duty.tonnesKg = 0) ∧
      (∀ a : Accum,
        (∀ v, accGet s.store.image.accumulators a = .good v → accGet t.duty.values a = v) ∧
        (accGet s.store.image.accumulators a = .bad → accGet t.duty.values a = ⟨0, true⟩) ∧
        (accGet s.store.image.accumulators a = .missing → accGet t.duty.values a = ⟨0, false⟩)) ∧
      (∀ k < 24,
        (s.store.image.items.getD k .missing = .missing ∨ s.store.image.items.getD k .missing = .good none →
          itemAt t k = emptyItem) ∧
        (s.store.image.items.getD k .missing = .bad → (itemAt t k).state = .faulted ∧ (itemAt t k).fields = none) ∧
        ∀ f, s.store.image.items.getD k .missing = .good (some f) →
          ((accGet t.duty.values f.basis).lost = true →
            (itemAt t k).state = .faulted ∧ (itemAt t k).fields = some { f with acknowledged := false }) ∧
          ((accGet t.duty.values f.basis).lost = false →
            (itemAt t k).state = stateAt f (basisOf t.duty f.basis - f.baseline) ∧
            (itemAt t k).fields = some { f with acknowledged := f.acknowledged && decide ((itemAt t k).state ≠ .dormant) } ∧
            (itemAt t k).nextRepeat =
              (if ((itemAt t k).state = .due ∨ (itemAt t k).state = .overdue) ∧ f.acknowledged = false ∧
                f.repeatEvery ≠ 0 ∧ basisOf t.duty f.basis + f.repeatEvery ≤ 4294967295 then
                some (basisOf t.duty f.basis + f.repeatEvery) else none) ∧
            (itemAt t k).lastNotice = none)) ∧
      (let faults := (List.range 24).filter fun k => decide ((itemAt t k).state = .faulted)
       t.ring.put = faults.length ∧
       (∀ r, (readerOf t.ring r).get = 0 ∧ (readerOf t.ring r).unread = faults.length ∧
        (readerOf t.ring r).lost = false) ∧
       (∀ j k, faults[j]? = some k →
        (itemAt t k).lastNotice = some j ∧ (itemAt t k).nextRepeat = none ∧
        ((itemAt t k).fields = none → t.ring.slots.getD j none = some ⟨k, .fault, .faulted, 0, .critical⟩) ∧
        ∀ f, (itemAt t k).fields = some f →
          t.ring.slots.getD j none = some ⟨k, .fault, .faulted, basisOf t.duty f.basis, f.severity⟩) ∧
       ∀ j, faults.length ≤ j → t.ring.slots.getD j none = none) ∧
      (t.ladder.service = true ↔ ∃ i ∈ t.items,
        (∃ f, i.fields = some f ∧ f.severity = .critical ∧ (i.state = .overdue ∨ i.state = .faulted)) ∨
        i.state = .faulted ∧ i.fields = none) ∧
      ((∀ w, s.store.image.watermark = .good w →
          t.ring.cab.watermark = w.cab ∧ t.ring.service.watermark = w.service) ∧
        (s.store.image.watermark = .missing ∨ s.store.image.watermark = .bad →
          t.ring.cab.watermark = 0 ∧ t.ring.service.watermark = 0))

/-- LOAD_COMPLETION fills both output sets with the fallbacks of the constrained set, quality LOST, phase IDLE and the
ladder's target, and starts the output period, cab view and save timers (R59, R118, R163, R186). -/
def Obligations.LoadCompletionFillsOutputSets : Prop :=
  ∀ s : State, s.part = .loading → 73 ≤ s.examined → s.store.image.zones.length = 32 →
    ∃ t, exec .loadCompletion s = .next t ∧ t.part = .waiting ∧
      t.output.pending = t.output.active ∧ t.output.active.seq = none ∧ t.output.active.quality = .lost ∧
      t.output.active.phase = .idle ∧ t.output.active.advise = false ∧
      IsUnusableRecord t.table (geometryFields t.solver.geometry)
        ⟨t.output.active.scales, t.output.active.binding, t.output.active.fallback⟩ ∧
      IsUnusableRecord t.table (geometryFields t.solver.geometry) t.evaluator.record ∧
      (∀ n < 33, t.evaluator.inside.getD n true = false ∧ t.evaluator.clear.getD n true = false) ∧
      t.output.active.target = t.ladder.target ∧ t.output.active.next = t.ladder.next ∧
      t.ladder.target = formTarget t.ladder ∧ t.ladder.next = formNext t.ladder ∧
      ((∀ n, s.store.image.outputPeriod = .good n → t.output.period = n) ∧
        (s.store.image.outputPeriod = .missing ∨ s.store.image.outputPeriod = .bad → t.output.period = 20)) ∧
      t.output.periodTimer = some t.output.period ∧ t.output.cabTimer = some 100 ∧ t.store.timer = some 360000

/-! ## Links -/

/-- FRAME_RECEIVED queues a frame whose 29-bit identifier names the port's own node as destination and its partner as
source, or sets the overrun flag when 8 frames wait, and ignores every other frame; FRAME_TRANSMITTED takes the oldest
frame from the transmit queue (R179, R180, R182, R183). A notice message enters a free place, else the place of the
oldest waiting OUTPUT or CAB_VIEW, else it is discarded, as it is on a port in BUS_OFF (R182, R183); that it then
stands at the tail of the sending order is the model's choice (log 12). A sent frame names own node, partner, the
message's code and its class's priority (R179). -/
def Obligations.LinksQueueAndSendFrames : Prop :=
  ∀ (s : State) (l : Link),
    (∀ (f : RxFrame) (i : BitVec 29), (s.part ≠ .loading ∨ s.examined ≠ 0) → (portOf s l).state = .active →
      f.ident = .extended i → identDest i = (portOf s l).nodes.own → identSource i = (portOf s l).nodes.partner →
      exec (.frameReceived l f) s = .next
        (setPort l
          (if (portOf s l).rx.length < 8 then { portOf s l with rx := (portOf s l).rx ++ [f] }
            else { portOf s l with overrun := true }) s)) ∧
    (∀ f : RxFrame,
      (s.part = .loading ∧ s.examined = 0 ∨ (portOf s l).state = .busOff ∨ (∃ i, f.ident = .standard i) ∨
        ∃ i, f.ident = .extended i ∧
          (identDest i ≠ (portOf s l).nodes.own ∨ identSource i ≠ (portOf s l).nodes.partner)) →
      exec (.frameReceived l f) s = .next s) ∧
    ((portOf s l).state = .active →
      exec (.frameTransmitted l) s = .next (setPort l { portOf s l with tx := (portOf s l).tx.tail } s)) ∧
    ((portOf s l).state = .busOff → exec (.frameTransmitted l) s = .next s) ∧
    ∀ b : TxBody,
      let p := portOf s l
      let f := frameOf p b
      let periodic := fun g : TxFrame => (∃ m, g.body = .output m) ∨ ∃ v, g.body = .cabView v
      (p.state = .busOff → sendNotice l b s = s) ∧
      (p.state = .active → p.tx.length + p.reserved < 8 → sendNotice l b s = setPort l { p with tx := p.tx ++ [f] } s) ∧
      (p.state = .active → 8 ≤ p.tx.length + p.reserved →
        (∀ before g after, p.tx = before ++ g :: after → periodic g → (∀ x ∈ before, ¬periodic x) →
          sendNotice l b s = setPort l { p with tx := before ++ after ++ [f] } s) ∧
        ((∀ x ∈ p.tx, ¬periodic x) → sendNotice l b s = s)) ∧
      f.body = b ∧ identSource f.ident = p.nodes.own ∧ identDest f.ident = p.nodes.partner ∧
      (∀ m, b = .output m → identPriority f.ident = 1 ∧ identCode f.ident = 256) ∧
      (∀ v, b = .cabView v → identPriority f.ident = 5 ∧ identCode f.ident = 257) ∧
      (∀ c r e, b = .response c r e → identPriority f.ident = 3 ∧ identCode f.ident = 272) ∧
      (∀ d r x y, b = .demandDropped d r x y → identPriority f.ident = 4 ∧ identCode f.ident = 288) ∧
      (∀ r n m, b = .ringWatermark r n m → identPriority f.ident = 4 ∧ identCode f.ident = 289) ∧
      (∀ k, b = .retireDone k → identPriority f.ident = 4 ∧ identCode f.ident = 290) ∧
      (∀ n m, b = .saveDone n m → identPriority f.ident = 4 ∧ identCode f.ident = 291)

/-- BUS_OFF empties the port's queues, sets the overrun flag when frames were waiting, and lets the answers owed on
that port go, while the requests themselves stay queued; BUS_OFF_RECOVERY returns the port as it stands (R14, R51,
R183). The mark that an answer is owed is the model's own (log 22), and a BUS_OFF of a port already in it changes
nothing (log 3). -/
def Obligations.LinkRestartLosesAnswersOnly : Prop :=
  ∀ (s : State) (l : Link),
    ((portOf s l).state = .active →
      exec (.busOff l) s = .next
        (setPort l
          { portOf s l with
            state := .busOff, rx := [], tx := [], reserved := 0
            overrun := (portOf s l).overrun || !(portOf s l).rx.isEmpty }
          { s with
            table := { s.table with queue := s.table.queue.map fun q => if q.link = l then { q with owed := false } else q }
            solver := { s.solver with waiting :=
              if l = .sl then s.solver.waiting.map fun w => { w with owed := false } else s.solver.waiting } })) ∧
    ((portOf s l).state = .busOff → exec (.busOff l) s = .next s) ∧
    exec (.busOffRecovery l) s = .next (setPort l { portOf s l with state := .active } s)

/-- A request at a port's head is taken only while the transmit queue has a free place. The port then makes the checks
of R181 in their order and answers the first that fails, echoing the fields as received: a code that names no request
(UNKNOWN_REQUEST), a link it is not permitted on, a RESTART that waits, a frame too short. -/
def Obligations.PortChecksRefuseInOrder : Prop :=
  ∀ (s : State) (l : Link) (f : RxFrame), AtHead s l f →
    (¬(l = .ml ∧ requestOf (frameCode f) = some .sample) → hasPlace (portOf s l) = false →
      exec (takerOf l f) s = .next s) ∧
    (hasPlace (portOf s l) = true →
      (requestOf (frameCode f) = none →
        exec (.unknownRequest l) s = .next
          (setPort l (answeredPort (portOf s l) (.response (frameCode f) .badField (.received f.data))) s)) ∧
      ∀ r, requestOf (frameCode f) = some r → ¬(l = .ml ∧ r = .sample) →
        (permitted r l = false → exec (takerOf l f) s = .next (answer l r .notPermitted (.received f.data) s)) ∧
        (permitted r l = true → s.store.restartPending = true →
          exec (takerOf l f) s = .next (answer l r .busy (.received f.data) s)) ∧
        (permitted r l = true → s.store.restartPending = false → longEnough r f.data = false →
          exec (takerOf l f) s = .next (answer l r .badField (.received f.data) s)))

/-! ## Samples and stage POSE -/

/-- A SAMPLE on ML is taken whatever room the transmit queue has and whether or not a RESTART waits: one that is too
short or a duplicate is discarded; any other restarts the stale timer and begins a solve, or goes into the pending slot
while one is in flight (R1, R3, R4, R5, R8, R181). SAMPLE on CL and SL is answered NOT_PERMITTED. -/
def Obligations.SampleBeginsSolve : Prop :=
  (∀ (s : State) (f : RxFrame) (b : List Byte), AtHead s .ml f → IsRequest f .sample (.bytes b) →
    let u := setPort .ml { portOf s .ml with rx := (portOf s .ml).rx.tail } s
    let limit := s.solver.control.staleLimit.toNat
    let latch := fun x : Sample => Latch.mk x s.solver.control s.solver.geometry s.aid.phase s.intake.restartMark
      s.intake.lastSolved
    (b.length < 34 → exec (.sample .ml) s = .next u) ∧
    ∀ x, readSample b = some x →
      (s.intake.lastTaken = some x.seq → exec (.sample .ml) s = .next u) ∧
      (s.intake.lastTaken ≠ some x.seq → s.solver.solve = .idle →
        exec (.sample .ml) s = .next
          { u with
            intake := { s.intake with
              lastTaken := some x.seq, state := .fresh, stale := some ⟨limit, limit⟩, restartMark := false }
            solver := { s.solver with solve := .pose (latch x) } }) ∧
      (s.intake.lastTaken ≠ some x.seq → s.solver.solve ≠ .idle →
        exec (.sample .ml) s = .next
          { u with intake := { s.intake with
              lastTaken := some x.seq, state := .fresh, stale := some ⟨limit, limit⟩, slot := some x } })) ∧
  ∀ (s : State) (l : Link) (f : RxFrame) (d : Payload), l ≠ .ml → AtHead s l f → IsRequest f .sample d →
    hasPlace (portOf s l) = true → exec (.sample l) s = .next (answer l .sample .notPermitted (.received d) s)

/-- The bytes of a SAMPLE and of a ZONE_EDIT WRITE, laid out as section 11.6 gives, read back to the same fields; the
WRITE is then clamped as R43 gives. -/
def Obligations.FrameLayoutsRoundTrip : Prop :=
  (∀ x : Sample, SampleOk x → (sampleBytes x).length = 34 ∧ readSample (sampleBytes x) = some x) ∧
  ∀ (n : Nat) (b : ZoneBody), n < 32 → ZoneFits b → ((b.stop - b.start) % 65536 ≠ 0 ∨ b.full = true) →
    (zoneWriteBytes n b).length = 12 ∧
    takeZoneEdit (.bytes (zoneWriteBytes n b)) = some (n, .write
      { b with
        margin := if b.kind = .sectorStop then min 8192 b.margin else min 5000 b.margin
        limit := if b.kind = .sectorStop then 0 else b.limit })

/-- STAGE_POSE holds the pose that stage POSE forms from the latch and the last good values (`poseResult`, of which
the slew and points statements say the rest): the causes of R15, the quality they decide with the latched enables
(R17), no points exactly when GEOMETRY is raised (R30), the settled bucket angle (R16); the last good values, the last
solved sample and the cause set of the last solve take their new values (R9, R13, R16), and nothing else changes. -/
def Obligations.StagePoseHoldsResults : Prop :=
  ∀ (s : State) (l : Latch), s.solver.solve = .pose l →
    let p := poseResult l s.solver.good
    ∃ good : LastGood,
      exec .stagePose s = .next
        { s with
          solver := { s.solver with solve := .evaluate l p, lastCauses := p.causes, good := good }
          intake := { s.intake with lastSolved := some ⟨l.sample.seq, l.sample.timestamp, p.psi, p.omega⟩ } } ∧
      (let g := geometryFields l.geometry
       let x := l.sample
       let v := l.sample.valid
       GoodKept v.boomPrimary g.boomRange x.boomPrimary s.solver.good.boom good.boom ∧
       GoodKept v.arm g.armRange x.arm s.solver.good.arm good.arm ∧
       GoodKept v.bucket g.bucketRange x.bucket s.solver.good.bucket good.bucket ∧
       GoodKept v.pitch g.pitchRange x.pitch s.solver.good.pitch good.pitch ∧
       good.slew = (if v.slew then x.slew else s.solver.good.slew) ∧
       p.psi = good.slew % 65536 ∧
       p.bucket = (if v.bucket then clamp g.bucketRange.lo g.bucketRange.hi x.bucket
         else s.solver.good.bucket) ∧
       (p.causes.marks.range = true ↔
         v.slew = false ∨
         ¬(v.boomPrimary = true ∧ g.boomRange.lo ≤ x.boomPrimary ∧ x.boomPrimary ≤ g.boomRange.hi) ∨
         ¬(v.arm = true ∧ g.armRange.lo ≤ x.arm ∧ x.arm ≤ g.armRange.hi) ∨
         ¬(v.bucket = true ∧ g.bucketRange.lo ≤ x.bucket ∧ x.bucket ≤ g.bucketRange.hi) ∨
         ¬(v.pitch = true ∧ g.pitchRange.lo ≤ x.pitch ∧ x.pitch ≤ g.pitchRange.hi)) ∧
       (p.causes.marks.tilt = true ↔ v.roll = true ∧ g.rollLimit < |x.roll|) ∧
       (p.causes.marks.disagree = true ↔
         v.boomPrimary = true ∧ v.boomSecondary = true ∧ g.tolerance < |x.boomPrimary - x.boomSecondary|)) ∧
      (p.causes.geometry = true ↔ ∀ g, l.geometry ≠ .present g) ∧
      (p.points = none ↔ p.causes.geometry = true) ∧
      (p.causes.geometry = true → p.causes.marks.overflow = false) ∧
      (p.quality = .withheld ↔ p.causes.geometry = true ∨ EnabledRaised p.causes.marks l.control.enables) ∧
      (p.quality = .good ↔ p.causes = noCauses) ∧ p.quality ≠ .lost

/-- The signed slew change is the shorter way round from the last solved angle (R31); a restart solve has none, speed
0 and no STEP (R7); a speed is held for an invalid channel and for an interval of 0 or above the stale limit, and STEP
holds it too, whatever the flush (R32, R33); the flush makes the speed so formed or held 0 below the dead band and
leaves it at the dead band or above (R34). The speed lies within 40000 AU/s after any solve (R33). -/
def Obligations.SlewSpeedFollowsChange : Prop :=
  ∀ (l : Latch) (good : LastGood),
    let p := poseResult l good
    let g := geometryFields l.geometry
    (l.restart = true → p.omega = 0 ∧ p.interval = 0 ∧ p.slewChange = none ∧ p.causes.marks.step = false) ∧
    (∀ b, l.restart = false → l.last = some b →
      let dt := (l.sample.timestamp + 65536 - b.timestamp % 65536) % 65536
      (∃ c, p.slewChange = some c ∧ -32768 ≤ c ∧ c ≤ 32767 ∧ (p.psi - b.psi - c) % 65536 = 0) ∧
      p.interval = min dt l.control.staleLimit.toNat ∧
      ∀ c, p.slewChange = some c →
        let formed := Int.tdiv (c * 1000) dt
        let held := decide (l.sample.valid.slew = false ∨ dt = 0 ∨ l.control.staleLimit < dt)
        let far := decide (2 * g.ratedSlew < |formed|)
        let w := if held || far then b.omega else formed
        p.causes.marks.step = (!held && far) ∧
        p.omega = if l.control.flush = true ∧ |w| < l.control.deadBand then 0 else w) ∧
    ((∀ b, l.last = some b → |b.omega| ≤ 40000) → g.ratedSlew ≤ 20000 → |p.omega| ≤ 40000)

/-- The sine of an angle is formed by quadrant from the interpolation of a quarter-wave table (R25), whose entries rise
from 0 to 16384, never decrease and are the manual's where it prints them (the others: log 21). The cosine is the sine a
quarter turn on, and both keep the range -16384 to 16384 (R26). -/
def Obligations.SineAndCosineKeepRange : Prop :=
  (∃ S : Nat → Int,
    (S 0 = 0 ∧ S 1 = 101 ∧ S 2 = 201 ∧ S 64 = 6270 ∧ S 128 = 11585 ∧ S 192 = 15137 ∧ S 256 = 16384) ∧
    (∀ i < 256, S i ≤ S (i + 1)) ∧
    ∀ a : Int, 0 ≤ a → a ≤ 65535 →
      let u := a % 16384
      let wave := fun x : Int =>
        let i := (x / 64).toNat
        if x = 16384 then 16384 else S i + ((S (i + 1) - S i) * (x % 64) + 32) / 64
      (a < 16384 → sine a = wave u) ∧ (16384 ≤ a → a < 32768 → sine a = wave (16384 - u)) ∧
      (32768 ≤ a → a < 49152 → sine a = -wave u) ∧ (49152 ≤ a → sine a = -wave (16384 - u))) ∧
  ∀ a : Int, 0 ≤ a → a ≤ 65535 →
    cosine a = sine ((a + 16384) % 65536) ∧ -16384 ≤ sine a ∧ sine a ≤ 16384 ∧ -16384 ≤ cosine a ∧ cosine a ≤ 16384

/-- A rounded term stands at its product over 16384 as its mode says (R28); the points are running sums of the exact
terms of the chain angles, each saturated into its mechanical range or, when its channel is invalid, the last good value
(R15, R27). They are saturated only as they are published, and OVERFLOW is raised exactly when a coordinate had to be
saturated (R29). -/
def Obligations.PointsAreRunningSums : Prop :=
  (∀ t : Int,
    (16384 * roundTerm .down t ≤ t ∧ t < 16384 * roundTerm .down t + 16384) ∧
    (t ≤ 16384 * roundTerm .up t ∧ 16384 * roundTerm .up t < t + 16384) ∧
    roundTerm .towardZero t = Int.tdiv t 16384 ∧
    2 * |t - 16384 * roundTerm .nearest t| ≤ 16384 ∧
    (2 * |t - 16384 * roundTerm .nearest t| = 16384 → roundTerm .nearest t % 2 = 0)) ∧
  ∀ (l : Latch) (good : LastGood) (g : Geometry), l.geometry = .present g →
    let x := l.sample
    let settled := fun (valid : Bool) (r : AngleRange) (angle last : Int) =>
      if valid then (if angle < r.lo then r.lo else if r.hi < angle then r.hi else angle) else last
    let m := l.control.rounding
    let phi1 := (settled x.valid.boomPrimary g.boomRange x.boomPrimary good.boom +
      settled x.valid.pitch g.pitchRange x.pitch good.pitch) % 65536
    let phi2 := (phi1 + settled x.valid.arm g.armRange x.arm good.arm) % 65536
    let phi3 := (phi2 + settled x.valid.bucket g.bucketRange x.bucket good.bucket) % 65536
    let r1 := g.x0 + roundTerm m (g.lb * cosine phi1)
    let z1 := g.z0 + roundTerm m (g.lb * sine phi1)
    let r2 := r1 + roundTerm m (g.la * cosine phi2)
    let z2 := z1 + roundTerm m (g.la * sine phi2)
    let r3 := r2 + roundTerm m (g.lk * cosine phi3)
    let z3 := z2 + roundTerm m (g.lk * sine phi3)
    (poseResult l good).points =
      some ⟨⟨sat16 r1, sat16 z1⟩, ⟨sat16 r2, sat16 z2⟩, ⟨sat16 r3, sat16 z3⟩⟩ ∧
    ((poseResult l good).causes.marks.overflow = true ↔
      ∃ x, (x = r1 ∨ x = z1 ∨ x = r2 ∨ x = z2 ∨ x = r3 ∨ x = z3) ∧ (x < -32768 ∨ 32767 < x))

/-! ## The envelope -/

/-- The slew allowance of one direction (R64): 0 within the guard; beyond it the whole number whose square is the
greatest not above twice the deceleration times the effective distance, over the rated speed, saturated at 1000. -/
def Obligations.SlewAllowanceStopsInTime : Prop :=
  ∀ d guard alpha rated : Int, 0 ≤ d → d ≤ 65535 → 0 ≤ guard → guard ≤ 8192 → 100 ≤ alpha → alpha ≤ 20000 →
    1000 ≤ rated → rated ≤ 20000 →
    let a := slewAllowance d guard alpha rated
    (d ≤ guard → a.omegaMax = 0 ∧ a.scale = 0) ∧
    (guard < d →
      0 ≤ a.omegaMax ∧ a.omegaMax * a.omegaMax ≤ 2 * alpha * (d - guard) ∧
      2 * alpha * (d - guard) < (a.omegaMax + 1) * (a.omegaMax + 1) ∧
      a.scale = min 1000 (1000 * a.omegaMax / rated)) ∧
    2 * alpha * (d - guard) ≤ 2621400000 ∧ 0 ≤ a.omegaMax ∧ a.omegaMax ≤ 51199 ∧ 0 ≤ a.scale ∧ a.scale ≤ 1000

/-- In an evaluation of a usable pose each actuator's scale is the least contribution made to it, its binding zone the
lowest-numbered entry that gives it; without contribution it is 1000 and unbound; FALLBACK is set exactly when a FAULTED
entry binds some actuator (R71). -/
def Obligations.EvaluationTakesLeastContribution : Prop :=
  ∀ (i : EvalInput) (t : EnvTable),
    (∀ a : Actuator,
      ((∀ n ≤ 32, contribution i t n a = none) →
        actGet (usableRecord i t).scales a = 1000 ∧ actGet (usableRecord i t).binding a = none) ∧
      ∀ n ≤ 32, ∀ x, contribution i t n a = some x →
        (∀ k ≤ 32, ∀ y, contribution i t k a = some y → x < y ∨ x = y ∧ n ≤ k) →
        actGet (usableRecord i t).scales a = x ∧ actGet (usableRecord i t).binding a = some n) ∧
    ((usableRecord i t).fallback = true ↔
      ∃ a n, actGet (usableRecord i t).binding a = some n ∧ entryView t n = .faulted)

/-- What each kind of entry contributes: the in-sector scale of a limit (R62), the guard of a limit from outside its
sector (R67), the allowances of a stop from outside (R65), its escape scale inside (R66), the fallback of a FAULTED
entry (R68); no other entry contributes (R41). The distance of a limit is formed from the points (R61), and a slew
angle lies inside a sector exactly when it is a full circle or the angle lies less than the sector's width past its
start (R40). An entry forms a slew allowance, which the late-braking test reads, exactly where it so contributes from
outside (R75). -/
def Obligations.EntriesContributeByKind : Prop :=
  (∀ (b : ZoneBody) (p : Points) (psi : Int),
    (b.kind = .ceiling → limitDistance b p = b.limit - max p.p1.z (max p.p2.z p.p3.z)) ∧
    (b.kind = .floor → limitDistance b p = p.p3.z - b.limit) ∧
    (b.kind = .reachWall → limitDistance b p = b.limit - max p.p1.r (max p.p2.r p.p3.r)) ∧
    (insideSector b psi = true ↔ b.full = true ∨ (psi - b.start) % 65536 < (b.stop - b.start) % 65536)) ∧
  (∀ (i : EvalInput) (b : ZoneBody),
    let ccw := (b.start - i.psi) % 65536
    let cw := (i.psi - b.stop) % 65536
    let d := limitDistance b i.points
    let allow := fun x guard : Int => slewAllowance x guard i.alpha i.geometry.ratedSlew
    (∀ x guard, (allow x guard).distance = x) ∧
    (insideSector b i.psi = true ∨ b.kind ≠ .sectorStop ∧ b.margin ≤ d → approaches i b = ⟨none, none⟩) ∧
    (b.kind = .sectorStop → insideSector b i.psi = false →
      approaches i b = ⟨some (allow ccw b.margin), some (allow cw b.margin)⟩) ∧
    (b.kind ≠ .sectorStop → insideSector b i.psi = false → d < b.margin →
      let guarded := fun x : Int => if d < 0 then ⟨0, 0, x⟩ else allow x i.geometry.slewGuard
      approaches i b = ⟨if ccw ≤ cw then some (guarded ccw) else none, if cw ≤ ccw then some (guarded cw) else none⟩)) ∧
  ∀ (i : EvalInput) (t : EnvTable) (n : Nat) (a : Actuator),
    (entryView t n = .idle → contribution i t n a = none) ∧
    (entryView t n = .faulted →
      contribution i t n a = if faultConstrains n a then some (actGet i.geometry.fallback a) else none) ∧
    ∀ b, entryView t n = .active b →
      (b.kind ≠ .sectorStop → insideSector b i.psi = true →
        contribution i t n a =
          if kindConstrains b.kind a then
            some (if 0 < b.margin then max 0 (min 1000 (1000 * limitDistance b i.points / b.margin))
              else if 0 < limitDistance b i.points then 1000 else 0)
          else none) ∧
      (b.kind ≠ .sectorStop → insideSector b i.psi = false →
        (isFront a = true ∨ b.margin ≤ limitDistance b i.points → contribution i t n a = none) ∧
        (limitDistance b i.points < b.margin →
          contribution i t n .slewCcw =
            (if (b.start - i.psi) % 65536 ≤ (i.psi - b.stop) % 65536 then
              some (if limitDistance b i.points < 0 then 0
                else (slewAllowance ((b.start - i.psi) % 65536) i.geometry.slewGuard i.alpha i.geometry.ratedSlew).scale)
            else none) ∧
          contribution i t n .slewCw =
            (if (i.psi - b.stop) % 65536 ≤ (b.start - i.psi) % 65536 then
              some (if limitDistance b i.points < 0 then 0
                else (slewAllowance ((i.psi - b.stop) % 65536) i.geometry.slewGuard i.alpha i.geometry.ratedSlew).scale)
            else none))) ∧
      (b.kind = .sectorStop → isFront a = true → contribution i t n a = none) ∧
      (b.kind = .sectorStop → insideSector b i.psi = false →
        contribution i t n .slewCcw =
          some (slewAllowance ((b.start - i.psi) % 65536) b.margin i.alpha i.geometry.ratedSlew).scale ∧
        contribution i t n .slewCw =
          some (slewAllowance ((i.psi - b.stop) % 65536) b.margin i.alpha i.geometry.ratedSlew).scale) ∧
      (b.kind = .sectorStop → b.full = true →
        contribution i t n .slewCcw = some 0 ∧ contribution i t n .slewCw = some 0) ∧
      (b.kind = .sectorStop → b.full = false → insideSector b i.psi = true →
        contribution i t n .slewCcw =
          some (if (b.stop - i.psi) % 65536 ≤ (i.psi - b.start) % 65536 + 1 then i.geometry.escape else 0) ∧
        contribution i t n .slewCw =
          some (if (i.psi - b.start) % 65536 + 1 ≤ (b.stop - i.psi) % 65536 then i.geometry.escape else 0))

/-- STAGE_EVALUATE of a usable pose: entry 32's limit takes the design height at the tip (R54), the record is that of
the evaluation with the deceleration of the latched phase (R60, R71), the marks follow the front (R73, R74), the
events come in ascending entry number (R76), stage AIDS begins with the aid record and table as they stand (R81), and
nothing else changes. -/
def Obligations.StageEvaluateJudgesUsablePose : Prop :=
  ∀ (s : State) (l : Latch) (p : PoseResult) (pts : Points), s.solver.solve = .evaluate l p → UsablePose p pts →
    s.evaluator.inside.length = 33 → s.evaluator.clear.length = 33 →
    ∃ (limit : Option Int) (inside clear : List Bool) (e : EvalResult),
      let g := geometryFields l.geometry
      let t : EnvTable := { s.table with floorLimit := limit }
      let i : EvalInput :=
        { points := pts, psi := p.psi, omega := p.omega
          alpha := if l.phase = .swingLoaded then g.alphaLoaded else g.alphaEmpty, geometry := g, seq := l.sample.seq }
      exec .stageEvaluate s = .next
        { s with
          table := t
          evaluator := { record := usableRecord i t, inside := inside, clear := clear }
          solver := { s.solver with solve := .aids l p e s.aid.record s.aid.table } } ∧
      (holdActive s.table.plane = false → limit = s.table.floorLimit) ∧
      (∀ o b, s.table.plane = .present o b → b.hold = true →
        limit = some (b.elevation + Int.tdiv (pts.p3.r * b.slope) 1000)) ∧
      inside.length = 33 ∧ clear.length = 33 ∧
      (∀ n ≤ 32, ∀ b, entryView t n = .active b →
        (b.kind = .sectorStop → inside.getD n false = insideSector b p.psi ∧
          clear.getD n false = s.evaluator.clear.getD n false) ∧
        (b.kind ≠ .sectorStop → inside.getD n false = s.evaluator.inside.getD n false ∧
          (clear.getD n false = true ↔ insideSector b p.psi = false ∨ 0 ≤ limitDistance b pts))) ∧
      (∀ n ≤ 32, (∀ b, entryView t n ≠ .active b) →
        inside.getD n false = s.evaluator.inside.getD n false ∧ clear.getD n false = s.evaluator.clear.getD n false) ∧
      (Ascending SlewEntryStamp.entry e.entries ∧ ∀ x, x ∈ e.entries ↔
        x.entry ≤ 32 ∧ x.psi = p.psi ∧ x.omega = p.omega ∧ x.seq = l.sample.seq ∧
        ∃ b, entryView t x.entry = .active b ∧ b.kind = .sectorStop ∧ insideSector b p.psi = true ∧
          s.evaluator.inside.getD x.entry false = false) ∧
      (Ascending LimitBreachStamp.entry e.breaches ∧ ∀ x, x ∈ e.breaches ↔
        x.entry ≤ 32 ∧ x.psi = p.psi ∧ x.seq = l.sample.seq ∧
        ∃ b, entryView t x.entry = .active b ∧ b.kind ≠ .sectorStop ∧ x.kind = b.kind ∧
          x.distance = sat16 (limitDistance b pts) ∧ insideSector b p.psi = true ∧ limitDistance b pts < 0 ∧
          s.evaluator.clear.getD x.entry false = true) ∧
      (Ascending LateBrakingStamp.entry e.late ∧ ∀ x, x ∈ e.late ↔
        x.entry ≤ 32 ∧ x.omega = p.omega ∧ x.seq = l.sample.seq ∧ 11 * x.omegaMax < 10 * |p.omega| ∧
        ∃ b y, entryView t x.entry = .active b ∧ x.omegaMax = y.omegaMax ∧ x.distance = y.distance ∧
          ((0 < p.omega ∧ x.direction = .ccw ∧ (approaches i b).ccw = some y) ∨
            (p.omega < 0 ∧ x.direction = .cw ∧ (approaches i b).cw = some y)))

/-- STAGE_EVALUATE of a WITHHELD pose: every actuator of the constrained set at the latched fallback, every other at
1000, FALLBACK set, no mark moved and no event found (R60, R69); stage AIDS begins. -/
def Obligations.StageEvaluateFallsBackWhenWithheld : Prop :=
  ∀ (s : State) (l : Latch) (p : PoseResult), s.solver.solve = .evaluate l p → p.quality = .withheld →
    ∃ r : EvalRecord,
      exec .stageEvaluate s = .next
        { s with
          evaluator := { s.evaluator with record := r }
          solver := { s.solver with solve := .aids l p ⟨[], [], []⟩ s.aid.record s.aid.table } } ∧
      IsUnusableRecord s.table (geometryFields l.geometry) r

/-- A zone edit at the table (R45 to R48, R56, R77): PROTECTED for a SITE entry on any link but SL; else by action and
state. An edit that is not OK changes nothing; one that is OK changes its entry alone, the entry's marks (not on
RESUME), the dirty mark of a SITE entry before or after, and, while the pose is unusable, the evaluator's record with
its group of the pending set. -/
def Obligations.ZoneEditsFollowOriginAndState : Prop :=
  ∀ (l : Link) (n : Nat) (act : ZoneAction) (s : State), n < 32 → s.table.zones.length = 32 →
    s.evaluator.inside.length = 33 → s.evaluator.clear.length = 33 →
    let r := (applyZone l n act s).1
    let t := (applyZone l n act s).2
    let z := zoneAt s n
    (l ≠ .sl ∧ isSite z = true → r = .isProtected) ∧
    (l = .sl ∨ isSite z = false →
      (∀ b, act = .write b → r = .ok ∧ zoneAt t n = .active (if l = .sl then .site else .operator) b) ∧
      (act = .delete → if z = .empty then r = .notFound else r = .ok ∧ zoneAt t n = .empty) ∧
      (act = .suspend →
        (∀ o b, z = .active o b → r = .ok ∧ zoneAt t n = .suspended o b) ∧
        ((∀ o b, z ≠ .active o b) → r = .wrongState)) ∧
      (act = .resume →
        (∀ o b, z = .suspended o b → r = .ok ∧ zoneAt t n = .active o b) ∧
        ((∀ o b, z ≠ .suspended o b) → r = .wrongState))) ∧
    (r ≠ .ok → t = s) ∧
    (r = .ok →
      (∀ k, k ≠ n → zoneAt t k = zoneAt s k ∧
        t.evaluator.inside.getD k false = s.evaluator.inside.getD k false ∧
        t.evaluator.clear.getD k false = s.evaluator.clear.getD k false) ∧
      (act ≠ .resume → t.evaluator.inside.getD n true = false ∧ t.evaluator.clear.getD n true = false) ∧
      (act = .resume → t.evaluator.inside = s.evaluator.inside ∧ t.evaluator.clear = s.evaluator.clear) ∧
      t.store = (if isSite z || isSite (zoneAt t n) then (markDirty (.zone n) { s with table := t.table }).store
        else s.store) ∧
      RewrittenIfUnusable s t (geometryFields s.solver.geometry) ∧
      t = { s with
            table := { s.table with zones := t.table.zones }, evaluator := t.evaluator, output := t.output
            store := t.store })

/-- SET_GRADE and SET_GEOMETRY at their owners. A plane of origin SITE is PROTECTED on any link but SL; SET writes it,
CLEAR removes it or finds none, and entry 32's marks are cleared (R53). A geometry record is replaced whole, the last
good values are saturated into its ranges and it is marked dirty (R36). Both may rewrite the evaluator's record while
the pose is unusable (R77). -/
def Obligations.PlaneAndGeometryEditsApply : Prop :=
  (∀ (l : Link) (act : PlaneAction) (s : State), s.evaluator.inside.length = 33 → s.evaluator.clear.length = 33 →
    let r := (applyPlane l act s).1
    let t := (applyPlane l act s).2
    (l ≠ .sl ∧ planeIsSite s.table.plane = true → r = .isProtected) ∧
    (l = .sl ∨ planeIsSite s.table.plane = false →
      (∀ b, act = .set b → r = .ok ∧ t.table.plane = .present (if l = .sl then .site else .operator) b) ∧
      (act = .clear → if s.table.plane = .absent then r = .notFound else r = .ok ∧ t.table.plane = .absent)) ∧
    (r ≠ .ok → t = s) ∧
    (r = .ok →
      t.evaluator.inside.getD 32 true = false ∧ t.evaluator.clear.getD 32 true = false ∧
      (∀ k, k ≠ 32 → t.evaluator.inside.getD k false = s.evaluator.inside.getD k false ∧
        t.evaluator.clear.getD k false = s.evaluator.clear.getD k false) ∧
      t.store = (if planeIsSite s.table.plane || planeIsSite t.table.plane then
        (markDirty .grade { s with table := t.table }).store else s.store) ∧
      RewrittenIfUnusable s t (geometryFields s.solver.geometry) ∧
      t = { s with
            table := { s.table with plane := t.table.plane, floorLimit := t.table.floorLimit }
            evaluator := t.evaluator, output := t.output, store := t.store })) ∧
  ∀ (g : Geometry) (s : State),
    let t := applyGeometry g s
    t.solver = { s.solver with
      geometry := .present g
      good := { boom := clamp g.boomRange.lo g.boomRange.hi s.solver.good.boom
                arm := clamp g.armRange.lo g.armRange.hi s.solver.good.arm
                bucket := clamp g.bucketRange.lo g.bucketRange.hi s.solver.good.bucket
                pitch := clamp g.pitchRange.lo g.pitchRange.hi s.solver.good.pitch, slew := s.solver.good.slew } } ∧
    t.store = (markDirty .geometry { s with solver := t.solver }).store ∧
    RewrittenIfUnusable s t g ∧
    t = { s with
          solver := t.solver, store := t.store, evaluator := { s.evaluator with record := t.evaluator.record }
          output := t.output }

/-- ZONE_EDIT (WRITE, DELETE, SUSPEND, RESUME), SET_GRADE (SET, CLEAR) and SET_GEOMETRY that pass their checks:
applied and answered at once while the solver is IDLE; queued with their answer's place kept while a solve is in
flight; answered BUSY with no effect when four edits wait (R44, R50). One that fails a taking check is answered
BAD_FIELD with no effect (R36, R43, R52). While a completion applies the queue, a step takes an edit request as its
command does, the solve still in flight, or removes the edit at the head, applies it and answers it (R50; the schedule
of such steps: log 29). The values of SET_GEOMETRY's BUSY and BAD_FIELD answers are log 25's choice, and a code that
names no choice belongs to the row of log 17. -/
def Obligations.EditsApplyOrWait : Prop :=
  (∀ (s : State) (c : Instr) (l : Link) (r : Request) (d : Payload) (e : Edit), EditForm c l r d e → Offered s l r d →
    (s.solver.solve = .idle →
      exec c s = .next (answer l r (applyEdit l e s).1.2.1 (applyEdit l e s).1.2.2 (applyEdit l e s).2)) ∧
    (s.solver.solve ≠ .idle → s.table.queue.length < 4 →
      exec c s = .next
        (setPort l { portOf s l with rx := (portOf s l).rx.tail, reserved := (portOf s l).reserved + 1 }
          { s with table := { s.table with queue := s.table.queue ++ [⟨l, true, e⟩] } })) ∧
    (s.solver.solve ≠ .idle → 4 ≤ s.table.queue.length → exec c s = .next (answer l r .busy (busyEcho e).2 s))) ∧
  (∀ (s : State) (l : Link) (f : RxFrame), AtHead s l f →
    ((requestOf (frameCode f) = some .zoneEdit ∨ requestOf (frameCode f) = some .setGrade ∨
        requestOf (frameCode f) = some .setGeometry) →
      exec (takerOf l f) s = .next (editStep s (.take l))) ∧
    (requestOf (frameCode f) ≠ some .zoneEdit → requestOf (frameCode f) ≠ some .setGrade →
      requestOf (frameCode f) ≠ some .setGeometry → editStep s (.take l) = s)) ∧
  (∀ (s : State) (q : QueuedEdit) (rest : List QueuedEdit), s.table.queue = q :: rest →
    let x := applyEdit q.link q.edit { s with table := { s.table with queue := rest } }
    editStep s .apply = sendAnswer q.link q.owed (.response (requestCode x.1.1) x.1.2.1 x.1.2.2) x.2) ∧
  (∀ (s : State) (l : Link) (b : List Byte), Offered s l .zoneEdit (.bytes b) →
    32 ≤ byteAt b 0 ∨ 4 ≤ byteAt b 1 ∨
      (byteAt b 1 = 0 ∧ (4 ≤ byteAt b 2 ∨ (wordAt b 4 = wordAt b 6 ∧ flagOf (byteAt b 3) 0 = false))) →
    exec (zoneTaker l (.bytes b)) s = .next (answer l .zoneEdit .badField (.received (.bytes b)) s)) ∧
  (∀ (s : State) (l : Link) (p : PlaneBody), Offered s l .setGrade (.setGrade none p) →
    exec (.setGradeSet l) s = .next (answer l .setGrade .badField (.received (.setGrade none p)) s)) ∧
  ∀ (s : State) (l : Link) (g : Geometry), Offered s l .setGeometry (.geometry g) →
    g.boomRange.hi < g.boomRange.lo ∨ g.armRange.hi < g.armRange.lo ∨ g.bucketRange.hi < g.bucketRange.lo ∨
      g.pitchRange.hi < g.pitchRange.lo →
    exec (.setGeometry l) s = .next (answer l .setGeometry .badField (.received (.geometry g)) s)

/-! ## The aid unit -/

/-- STAGE_AIDS: a WITHHELD solve forces the return to IDLE, asks for the withdrawal of DIG_BOOST and writes cue NONE;
a usable one forms the grade offset and the cue from the plane, or none without one, and leaves record and table (R81
to R84, R88). That the return zeroes the time in phase and the cycle elapsed from IDLE too is the model's choice (log
30). -/
def Obligations.StageAidsFormsGradeAndReturns : Prop :=
  (∀ (s : State) (l : Latch) (p : PoseResult) (e : EvalResult) (r : AidRecord) (t : Eight PayloadPoint),
    s.solver.solve = .aids l p e r t → p.quality = .withheld →
    exec .stageAids s = .next
      { s with
        aid := { s.aid with
          phase := .idle, timeIn := 0, start := none, elapsed := 0, loaded := 0, forceSum := 0, reachSum := 0
          averaged := 0, pressureInvalid := false }
        solver := { s.solver with solve := .finished l p e ⟨none, .none, some .withdraw, none, none⟩ } }) ∧
  ∀ (s : State) (l : Latch) (p : PoseResult) (e : EvalResult) (r : AidRecord) (t : Eight PayloadPoint) (pts : Points),
    s.solver.solve = .aids l p e r t → UsablePose p pts →
    ∃ (u : AidUnit) (a : AidsResult),
      exec .stageAids s = .next { s with aid := u, solver := { s.solver with solve := .finished l p e a } } ∧
      u.record = s.aid.record ∧ u.table = s.aid.table ∧
      (s.table.plane = .absent ∨ s.table.plane = .faulted → a.offset = none ∧ a.cue = .none) ∧
      ∀ o b, s.table.plane = .present o b → 0 ≤ b.tolerance →
        let h := pts.p3.z - (b.elevation + Int.tdiv (pts.p3.r * b.slope) 1000)
        let g := max (-32767) (min 32767 h)
        a.offset = some g ∧ (b.tolerance < g → a.cue = .above) ∧ (g < -b.tolerance → a.cue = .below) ∧
          (-b.tolerance ≤ g → g ≤ b.tolerance → a.cue = .on)

/-- STAGE_AIDS of a usable solve moves the cycle phase at most one step, by the table of R85, with the entry work of
the phase entered: cycle start and boost request at DIG (R87, R89), cleared sums and the withdrawal at SWING_LOADED
(R89, R90), the cycle record and the prescaler at DUMP (R93, R96, R98). Without a transition the time in phase
advances and may time out, with the effects of the phase left, and the cycle elapsed of DIG and SWING_LOADED runs on
(R86, R87). A solve that ends in SWING_LOADED is a loaded solve and, past the settle count, is averaged (R91, R92; the
pressure-invalid mark beyond 65535 averaged solves: log 27). The payload is formed from the averages and the latched
table (R94, R95). -/
def Obligations.CyclePhaseMovesOneStep : Prop :=
  (∀ (s : State) (l : Latch) (p : PoseResult) (e : EvalResult) (r : AidRecord) (t : Eight PayloadPoint) (pts : Points),
    s.solver.solve = .aids l p e r t → UsablePose p pts →
    ∃ (u : AidUnit) (a : AidsResult),
      exec .stageAids s = .next { s with aid := u, solver := { s.solver with solve := .finished l p e a } } ∧
      u.record = s.aid.record ∧ u.table = s.aid.table ∧
      (let x := l.sample
       let still := |p.omega| < r.omegaStill ∧ x.valid.armHead = true ∧ r.digPressure ≤ x.armHead
       let elapsed := if s.aid.phase = .dig ∨ s.aid.phase = .swingLoaded then min 240000 (s.aid.elapsed + p.interval)
         else s.aid.elapsed
       let moves := ((s.aid.phase = .idle ∨ s.aid.phase = .swingEmpty) ∧ still) ∨
         (s.aid.phase = .dig ∧ r.omegaSwing ≤ |p.omega| ∧ r.curl ≤ p.bucket) ∨
         (s.aid.phase = .swingLoaded ∧ p.bucket < r.dump) ∨ (s.aid.phase = .dump ∧ r.omegaSwing ≤ |p.omega|)
       let timesOut := ¬moves ∧ s.aid.phase ≠ .idle ∧ 1000 * r.timeout ≤ min 120000 (s.aid.timeIn + p.interval)
       (moves → u.timeIn = 0) ∧
       (moves → s.aid.phase = .idle ∨ s.aid.phase = .swingEmpty →
         u.phase = .dig ∧ u.start = some ⟨x.seq, x.timestamp⟩ ∧ u.elapsed = 0 ∧ SameSums s.aid u ∧
         a.boost = (if x.valid.armHead = true ∧ r.boostPressure ≤ x.armHead then some .place else none)) ∧
       (moves → s.aid.phase = .dig →
         u.phase = .swingLoaded ∧ a.boost = some .withdraw ∧ u.elapsed = elapsed ∧ u.start = s.aid.start ∧
         u.loaded = 1 ∧ LoadedSolve r x pts.p3.r (noSums s.aid) u) ∧
       (moves → s.aid.phase = .swingLoaded →
         u.phase = .dump ∧ u.start = none ∧ SameSums (noSums s.aid) u ∧ a.boost = none ∧ u.elapsed = elapsed ∧
         ∃ c, u.last = some c ∧ a.completed = some c.payload ∧ c.seq = x.seq ∧ c.start = s.aid.start ∧
           c.endTimestamp = x.timestamp ∧ c.duration = elapsed ∧
           (s.aid.averaged = 0 → c.reach = none ∧ c.payload = none) ∧
           (s.aid.averaged ≠ 0 → c.reach = some (Int.tdiv s.aid.reachSum s.aid.averaged)) ∧
           (s.aid.pressureInvalid = true → c.payload = none) ∧
           (s.aid.averaged ≠ 0 → s.aid.pressureInvalid = false →
             c.payload = some (payloadKg t (Int.tdiv s.aid.forceSum s.aid.averaged)
               (Int.tdiv s.aid.reachSum s.aid.averaged))) ∧
           (r.prescale ≤ s.aid.prescaler + 1 →
             u.prescaler = 0 ∧ a.stamp = some ⟨c, r.prescale, s.aid.prescaler + 1⟩) ∧
           (s.aid.prescaler + 1 < r.prescale → u.prescaler = s.aid.prescaler + 1 ∧ a.stamp = none)) ∧
       (¬(moves ∧ s.aid.phase = .swingLoaded) →
         u.last = s.aid.last ∧ u.prescaler = s.aid.prescaler ∧ a.completed = none ∧ a.stamp = none) ∧
       (moves → s.aid.phase = .dump →
         u.phase = .swingEmpty ∧ a.boost = none ∧ u.start = s.aid.start ∧ u.elapsed = elapsed ∧ SameSums s.aid u) ∧
       (¬moves → u.elapsed = elapsed) ∧
       (timesOut →
         u.phase = .idle ∧ u.timeIn = 0 ∧ a.boost = (if s.aid.phase = .dig then some .withdraw else none) ∧
         u.start = (if s.aid.phase = .dig ∨ s.aid.phase = .swingLoaded then none else s.aid.start) ∧
         SameSums (if s.aid.phase = .swingLoaded then noSums s.aid else s.aid) u) ∧
       (¬moves → ¬timesOut →
         u.phase = s.aid.phase ∧ u.timeIn = min 120000 (s.aid.timeIn + p.interval) ∧ a.boost = none ∧
         u.start = s.aid.start ∧
         (s.aid.phase = .swingLoaded → LoadedSolve r x pts.p3.r s.aid u) ∧
         (s.aid.phase ≠ .swingLoaded → SameSums s.aid u)))) ∧
  ∀ (t : Eight PayloadPoint) (force reach : Int),
    (0 ≤ payloadKg t force reach ∧ payloadKg t force reach ≤ 65535) ∧
    (strictlyRising t = true → ∃ empty gain,
      AtReach PayloadPoint.empty t reach empty ∧ AtReach PayloadPoint.gain t reach gain ∧
      payloadKg t force reach = max 0 (min 65535 (Int.tdiv ((force - empty) * gain) 10)))

/-! ## The completion of a solve and sample loss -/

/-- SOLVE_COMPLETION publishes the pose record whole when the solve is GOOD or DEGRADED, else only WITHHELD and cue NONE
(R17, R21); a DEGRADED solve sets its sticky flags (R18), and the waiting flag requests then act on them in their order
(R12, R19, R20). -/
def Obligations.CompletionPublishesPose : Prop :=
  ∀ (s : State) (o : CompletionOrder) (l : Latch) (p : PoseResult) (e : EvalResult) (a : AidsResult),
    s.solver.solve = .finished l p e a → p.quality ≠ .lost →
    ∃ t, exec (.solveCompletion o) s = .next t ∧
      (p.quality = .good ∨ p.quality = .degraded → t.solver.pose =
        { seq := some l.sample.seq, timestamp := some l.sample.timestamp, points := p.points, psi := some p.psi
          omega := some p.omega, quality := p.quality, causes := p.causes, offset := a.offset, cue := a.cue }) ∧
      (p.quality = .withheld → t.solver.pose = { s.solver.pose with quality := .withheld, cue := .none }) ∧
      t.solver.lastSeq = some l.sample.seq ∧ t.solver.lastCauses = s.solver.lastCauses ∧
      t.solver.control = s.solver.control ∧
      t.solver.sticky = s.solver.waiting.foldl (fun m w => stickyFrom m w.request)
        (if p.quality = .degraded then eitherMarks s.solver.sticky p.causes.marks else s.solver.sticky) ∧
      t.solver.waiting = []

/-- SOLVE_COMPLETION passes the results on (R11, R72, R111, R127, R175): the pending set, the accumulators, the ladder
and the stamp slots take theirs, the part enters RUNNING, each basis value that changed has its items re-examined in
accumulator order (R134, R143), THERMAL, WARMUP and the idle timer are re-formed (R113, R116, R117), and a period
expiry that is due may fall between the two writes (R165, log 11). It then finishes (R12): the waiting flag requests
answered, the edit queue applied head to tail and answered with what is taken meanwhile (R50, log 29), and the pending
sample begins the next solve or the solver becomes IDLE. -/
def Obligations.CompletionHandsOffAndFinishes : Prop :=
  ∀ (s : State) (o : CompletionOrder) (l : Latch) (p : PoseResult) (e : EvalResult) (a : AidsResult),
    s.solver.solve = .finished l p e a → p.quality ≠ .lost →
    ∃ t m : State, exec (.solveCompletion o) s = .next t ∧
      t.part = (if s.part = .waiting then .running else s.part) ∧
      t.output.pending.seq = some l.sample.seq ∧ t.output.pending.quality = p.quality ∧
      t.output.pending.phase = s.aid.phase ∧
      (s.table.queue = [] → o.edits = [] → t.output.pending.scales = s.evaluator.record.scales ∧
        t.output.pending.binding = s.evaluator.record.binding ∧
        t.output.pending.fallback = s.evaluator.record.fallback ∧ t.table = s.table ∧ t.evaluator = s.evaluator) ∧
      (let due := o.expiryBetween = true ∧ s.output.periodTimer = some 0
       (¬due → t.output.active = s.output.active ∧ t.output.periodTimer = s.output.periodTimer) ∧
       (due → t.output.periodTimer = some s.output.period ∧
        t.output.active = { s.output.pending with
          seq := some l.sample.seq, scales := s.evaluator.record.scales, binding := s.evaluator.record.binding
          fallback := s.evaluator.record.fallback, quality := p.quality, phase := s.aid.phase })) ∧
      (let d := integrate
         { interval := p.interval, engineValid := l.sample.valid.engine, engine := l.sample.engine
           fuelValid := l.sample.valid.fuel, fuel := l.sample.fuel, slewChange := p.slewChange
           step := p.causes.marks.step, completed := a.completed } s.duty
       let told := [Accum.engineTime, .loadTime, .fuel, .slew, .cycles, .tonnes].foldl
         (fun x b => if basisOf d b = accGet s.duty.handed b then x
           else (List.range 24).foldl (reexamineItem b (basisOf d b)) x) s
       t.duty = { d with handed := t.duty.handed } ∧ (∀ x, accGet t.duty.handed x = basisOf d x) ∧
       t.items = told.items ∧ t.ring = told.ring) ∧
      t.ladder.service = serviceWanted t.items ∧
      t.stamps = { s.stamps with
        solveFault := if p.quality = .withheld then raiseSlot s.stamps.solveFault ⟨l.sample.seq, p.causes⟩
          else s.stamps.solveFault
        slewEntry := e.entries.foldl raiseSlot s.stamps.slewEntry
        limitBreach := e.breaches.foldl raiseSlot s.stamps.limitBreach
        lateBraking := e.late.foldl raiseSlot s.stamps.lateBraking
        cycle := match a.stamp with
          | some x => raiseSlot s.stamps.cycle x
          | none => s.stamps.cycle } ∧
      t.ladder.config = s.ladder.config ∧ t.ladder.economy = s.ladder.economy ∧
      (let v := l.sample.valid
       let x := l.sample
       let above := fun limit : Int => v.coolant = true ∧ limit ≤ x.coolant ∨ v.oil = true ∧ limit ≤ x.oil
       (v.coolant = false → v.oil = false → t.ladder.thermal = s.ladder.thermal) ∧
       (v.coolant = true ∨ v.oil = true →
         (above s.ladder.economy.t2 → t.ladder.thermal = .stage2) ∧
         (¬above s.ladder.economy.t2 → above s.ladder.economy.t1 → t.ladder.thermal = .stage1) ∧
         (¬above s.ladder.economy.t2 → ¬above s.ladder.economy.t1 → t.ladder.thermal = .none)) ∧
       t.ladder.warmup =
         (if v.coolant then decide (x.coolant < s.ladder.economy.warmThreshold) else s.ladder.warmup)) ∧
      (l.sample.travel = false → demandOf .travel t.ladder.records = none) ∧
      (l.sample.travel = true → demandOf .travel s.ladder.records = none →
        ∃ d, demandOf .travel t.ladder.records = some d ∧ d.rpm = s.ladder.config.travel ∧ d.origin = .internal) ∧
      (l.sample.lever = true ∨ l.sample.travel = true →
        demandOf .autoIdle t.ladder.records = none ∧ t.ladder.idleTimer = none) ∧
      (l.sample.lever = false → l.sample.travel = false →
        (s.aid.phase = .idle → l.sample.operator = true →
          t.ladder.idleTimer =
            if demandOf .autoIdle s.ladder.records = none ∧ s.ladder.idleTimer = none then
              some (s.ladder.economy.idleDelay * 1000).toNat else s.ladder.idleTimer) ∧
        (s.aid.phase ≠ .idle ∨ l.sample.operator = false → t.ladder.idleTimer = none)) ∧
      (a.boost = some .withdraw → demandOf .digBoost t.ladder.records = none) ∧
      (a.boost = some .place →
        (if o.ladderFirst then s.ladder.service else t.ladder.service) = false → 0 < s.ladder.config.boostTime →
        ∃ d, demandOf .digBoost t.ladder.records = some d ∧ d.rpm = s.ladder.config.boost ∧
          d.duration = some (s.ladder.config.boostTime * 1000).toNat ∧ d.origin = .internal) ∧
      (a.boost = some .place → (if o.ladderFirst then s.ladder.service else t.ladder.service) = true →
        demandOf .digBoost s.ladder.records = none → demandOf .digBoost t.ladder.records = none) ∧
      t.ladder.target = formTarget t.ladder ∧ t.ladder.next = formNext t.ladder ∧
      t.output.pending.target = t.ladder.target ∧ t.output.pending.next = t.ladder.next ∧
      t.output.pending.advise = t.ladder.advise ∧
      t.aid = s.aid ∧ t.table.queue = [] ∧
      (s.intake.slot = none → t.solver.solve = .idle ∧ t.intake = s.intake) ∧
      (∀ x, s.intake.slot = some x →
        t.solver.solve = .pose (Latch.mk x s.solver.control t.solver.geometry s.aid.phase s.intake.restartMark
          s.intake.lastSolved) ∧
        t.intake = { s.intake with slot := none, restartMark := false }) ∧
      -- `m` stands after the hand-offs of R11; from it the finish of R12 leads to `t`
      m.table = s.table ∧ m.evaluator = s.evaluator ∧ m.aid = s.aid ∧ m.intake = s.intake ∧ m.items = t.items ∧
      m.ring = t.ring ∧ m.duty = t.duty ∧ m.ladder = t.ladder ∧ m.stamps = t.stamps ∧ m.part = t.part ∧
      m.solver = { s.solver with
        pose := t.solver.pose, lastSeq := some l.sample.seq
        sticky := if p.quality = .degraded then eitherMarks s.solver.sticky p.causes.marks else s.solver.sticky } ∧
      AllOnlySend s m ∧
      (let flagged := s.solver.waiting.foldl (fun x w => sendAnswer .sl w.owed
         (.response (match w.request with | .read => 130 | .clear _ => 131) .ok (flagEcho x.solver w.request))
         { x with solver := { x.solver with sticky := stickyFrom x.solver.sticky w.request } }) m
       let stepped := o.edits.foldl editStep { flagged with solver := { flagged.solver with waiting := [] } }
       let edited := stepped.table.queue.foldl (fun x q =>
         let y := applyEdit q.link q.edit x
         sendAnswer q.link q.owed (.response (requestCode y.1.1) y.1.2.1 y.1.2.2) y.2)
         { stepped with table := { stepped.table with queue := [] } }
       t = { edited with solver := { edited.solver with solve := t.solver.solve }, intake := t.intake })

/-- STALE_TIMER_EXPIRY with the solver IDLE declares sample loss, once the timer's remaining time has passed (log 2):
the intake is STALE with the restart mark set, the pose LOST with cue NONE, SAMPLE_LOSS raised (R6), the evaluator's
record and the pending set fallen back and all marks cleared (R70), the aid unit returned to IDLE (R88), DIG_BOOST
alone withdrawn and the idle timer stopped (R113). That the time in phase and the cycle elapsed become 0 from IDLE too
is the model's choice (log 30). -/
def Obligations.StaleExpiryDeclaresSampleLoss : Prop :=
  ∀ (s : State) (k : StaleTimer), s.intake.stale = some k → s.solver.solve = .idle →
    let loss := SampleLossStamp.mk (s.intake.lastSolved.map LastSolved.seq) (s.intake.lastSolved.map LastSolved.timestamp)
      k.limit
    ∃ t, exec .staleTimerExpiry s = .next t ∧
      t.intake = { s.intake with state := .stale, stale := none, restartMark := true } ∧
      t.solver = { s.solver with pose := { s.solver.pose with quality := .lost, cue := .none } } ∧
      t.stamps = { s.stamps with sampleLoss := raiseSlot s.stamps.sampleLoss loss } ∧
      IsUnusableRecord s.table (geometryFields s.solver.geometry) t.evaluator.record ∧
      t.evaluator.inside = List.replicate 33 false ∧ t.evaluator.clear = List.replicate 33 false ∧
      t.output.pending =
        { seq := s.intake.lastSolved.map LastSolved.seq, scales := t.evaluator.record.scales
          binding := t.evaluator.record.binding, fallback := true, quality := .lost, phase := .idle
          target := t.ladder.target, next := t.ladder.next, advise := t.ladder.advise } ∧
      t.output.active = s.output.active ∧
      t.aid = { s.aid with
        phase := .idle, timeIn := 0, start := none, elapsed := 0, loaded := 0, forceSum := 0, reachSum := 0
        averaged := 0, pressureInvalid := false } ∧
      demandOf .digBoost t.ladder.records = none ∧ t.ladder.idleTimer = none ∧ OthersFrom .digBoost (elapse k.remaining s) t ∧
      OthersStay .digBoost (elapse k.remaining s) t ∧
      t.ladder = { (elapse k.remaining s).ladder with
        records := t.ladder.records, idleTimer := none, shutdownTimer := t.ladder.shutdownTimer, advise := t.ladder.advise
        target := formTarget t.ladder, next := formNext t.ladder } ∧
      t.table = s.table ∧ t.duty = s.duty ∧ t.items = s.items ∧ t.ring = s.ring ∧ t.part = s.part ∧ AllOnlySend s t

/-! ## The demand ladder -/

/-- A demand placed by SET_MODE (a mode), TOUCH_IDLE ON, REGEN_DEMAND PLACE or TEST_DEMAND PLACE stands in the ladder
with the level in force, its rpm and its duration, without a wait-expired mark and with the placement counter's value
as its stamp; it loses its wait limit only by leading (R103, R105, R106). The records of other sources keep what they
hold, and the request is answered OK with the demand as placed, behind the step's notices (log 13); a code that names
no choice, or a TEST without a duration, is answered BAD_FIELD with no effect (R119 to R122), its values log 25's
choice and its row log 17's. -/
def Obligations.PlacedDemandJoinsLadder : Prop :=
  (∀ (s : State) (c : Instr) (l : Link) (r : Request) (d : Payload) (src : Source) (rpm : Int)
    (duration wait : Option Nat), PlaceForm s c l r d src rpm duration wait → Offered s l r d → RecordsInv s.ladder →
    ∃ (t : State) (x : Demand), exec c s = .next t ∧ demandOf src t.ladder.records = some x ∧
      x.level = srcGet s.ladder.config.levels src ∧ x.rpm = rpm ∧ x.duration = duration ∧ x.expired = false ∧
      x.origin = .link l ∧ x.wait = (if x.leading then none else wait) ∧
      (s.ladder.counter < 4294967295 → x.stamp = s.ladder.counter ∧ t.ladder.counter = s.ladder.counter + 1) ∧
      OthersFrom src s t ∧ OthersStay src s t ∧ LadderFrame s t ∧
      AnsweredLast s t l (.response (requestCode r) .ok
        (.demand (some ⟨src, srcGet s.ladder.config.levels src, rpm, duration, wait⟩) t.ladder.target t.ladder.next))) ∧
  (∀ s : State, Offered s .cl .setMode (.setMode none) →
    exec (.setMode .cl) s = .next (answer .cl .setMode .badField (.received (.setMode none)) s)) ∧
  (∀ s : State, Offered s .cl .touchIdle (.touchIdle none) →
    exec (.touchIdleOn .cl) s = .next (answer .cl .touchIdle .badField (.received (.touchIdle none)) s)) ∧
  (∀ (s : State) (rpm : Int) (duration wait : Nat), Offered s .ml .regenDemand (.regenDemand none rpm duration wait) →
    exec (.regenDemandPlace .ml) s = .next
      (answer .ml .regenDemand .badField (.received (.regenDemand none rpm duration wait)) s)) ∧
  ∀ (s : State) (x : Option TestSource) (a : Option DemandAction) (rpm : Int) (duration wait : Nat),
    Offered s .sl .testDemand (.testDemand x a rpm duration wait) →
    x = none ∨ a = none ∨ (x = some .test ∧ a = some .place ∧ duration = 0) →
    exec (if a = some .withdraw then .testDemandWithdraw .sl else .testDemandPlace .sl) s = .next
      (answer .sl .testDemand .badField (.received (.testDemand x a rpm duration wait)) s)

/-- A withdrawal (SET_MODE OFF, TOUCH_IDLE OFF, REGEN_DEMAND WITHDRAW, TEST_DEMAND WITHDRAW) of a record that is
present removes it and is answered OK with the record as it stood, behind the step's DEMAND_DROPPED notices (log 13);
of an absent one it is answered NOT_FOUND and changes nothing (R109). When the active record is withdrawn, every
marked record next in line is removed with reason WAIT_EXPIRED, one DEMAND_DROPPED to the origin link of each, in the
order removed and with the target formed at the end (R106, R108, R110), and the first unmarked record leads. -/
def Obligations.WithdrawnDemandLeavesLadder : Prop :=
  ∀ (s : State) (c : Instr) (l : Link) (r : Request) (d : Payload) (src : Source),
    WithdrawForm c l r d src → Offered s l r d →
    (demandOf src s.ladder.records = none →
      exec c s = .next (answer l r .notFound (.demand none s.ladder.target s.ladder.next) s)) ∧
    (∀ (d : Demand) (marked rest : List Demand), s.ladder.records = d :: (marked ++ rest) → d.source = src →
      d.leading = true → (∀ y ∈ marked, y.source ≠ src ∧ y.leading = false ∧ y.expired = true) →
      (∀ y ∈ rest, y.source ≠ src ∧ y.leading = false ∧ y.expired = false ∧ y.duration ≠ some 0) →
      ∃ t, exec c s = .next t ∧
        t.ladder.records = (match rest with
          | [] => []
          | y :: ys => { y with leading := true, wait := none } :: ys) ∧
        t.ports = (sendAnswer l true (.response (requestCode r) .ok
            (.demand (some ⟨src, d.level, d.rpm, d.duration, d.wait⟩) t.ladder.target t.ladder.next))
          (marked.foldl (fun u y => match y.origin with
            | .link k => sendNotice k (.demandDropped y.source .waitExpired y.rpm t.ladder.target) u
            | .internal => u) (takeHead l s))).ports) ∧
    ∀ x, demandOf src s.ladder.records = some x →
      ∃ t, exec c s = .next t ∧ demandOf src t.ladder.records = none ∧ t.ladder.counter = s.ladder.counter ∧
        OthersFrom src s t ∧ OthersStay src s t ∧ LadderFrame s t ∧
        AnsweredLast s t l (.response (requestCode r) .ok
          (.demand (some ⟨src, x.level, x.rpm, x.duration, x.wait⟩) t.ladder.target t.ladder.next))

/-- IDLE_TIMER_EXPIRY stops the timer and places AUTO_IDLE with the idle rpm when it is absent, and
SHUTDOWN_TIMER_EXPIRY sets SHUTDOWN_ADVISE and writes it into the pending set, once the remaining time has passed
(R113, R114, log 2). A stopped timer does not expire. -/
def Obligations.IdleAndShutdownTimersExpire : Prop :=
  ∀ s : State,
    (s.ladder.idleTimer = none → exec .idleTimerExpiry s = .next s) ∧
    (∀ n, s.ladder.idleTimer = some n → RecordsInv s.ladder →
      ∃ t, exec .idleTimerExpiry s = .next t ∧ t.ladder.idleTimer = none ∧
        (∀ x, demandOf .autoIdle s.ladder.records = some x → t.ladder.records = (elapse n s).ladder.records) ∧
        (demandOf .autoIdle s.ladder.records = none →
          ∃ x, demandOf .autoIdle t.ladder.records = some x ∧ x.rpm = s.ladder.config.idle ∧ x.duration = none ∧
            x.wait = none ∧ x.expired = false ∧ x.origin = .internal ∧
            x.level = srcGet s.ladder.config.levels .autoIdle) ∧
        OthersFrom .autoIdle (elapse n s) t ∧ OthersStay .autoIdle (elapse n s) t ∧
        LadderFrame { elapse n s with ladder := { (elapse n s).ladder with idleTimer := none } } t ∧ t.ports = s.ports) ∧
    (s.ladder.shutdownTimer = none → exec .shutdownTimerExpiry s = .next s) ∧
    (∀ n, s.ladder.shutdownTimer = some n →
      let u := elapse n s
      exec .shutdownTimerExpiry s = .next
        { u with
          ladder := { u.ladder with
            shutdownTimer := none, advise := true, target := formTarget s.ladder, next := formNext s.ladder }
          output := { u.output with pending := { s.output.pending with
            target := formTarget s.ladder, next := formNext s.ladder, advise := true } } })

/-- DURATION_EXPIRY removes the active demand with reason EXPIRED, promotes the record behind it and tells the origin
link by DEMAND_DROPPED with the target formed at the end of the event (R106, R107, R110); WAIT_LIMIT_EXPIRY marks the
record in its place, target and next rpm as they were (R108). Both after the remaining time has passed (log 2). -/
def Obligations.DurationAndWaitLimitsExpire : Prop :=
  (∀ (s : State) (d : Demand) (rest : List Demand) (n : Nat), s.ladder.records = d :: rest → d.leading = true →
    d.duration = some n → (∀ x ∈ rest, x.leading = false ∧ x.expired = false ∧ x.duration ≠ some 0) →
    ∃ t, exec .durationExpiry s = .next t ∧
      t.ladder.records = (match rest.map (runDemand n) with
        | [] => []
        | x :: xs => { x with leading := true, wait := none } :: xs) ∧
      LadderFrame (elapse n s) t ∧
      (d.origin = .internal → t.ports = s.ports) ∧
      ∀ l, d.origin = .link l →
        t.ports = (sendNotice l (.demandDropped d.source .expired d.rpm t.ladder.target) s).ports) ∧
  (∀ s : State, (∀ d ∈ s.ladder.records.head?, d.leading = true → d.duration = none) →
    exec .durationExpiry s = .next s) ∧
  ∀ (s : State) (src : Source),
    (∀ x n, demandOf src s.ladder.records = some x → x.wait = some n →
      exec (.waitLimitExpiry src) s = .next
        { elapse n s with ladder := { (elapse n s).ladder with
            records := s.ladder.records.map fun y =>
              if y.source = src then { runDemand n y with expired := true, wait := none } else runDemand n y } }) ∧
    ((∀ x ∈ demandOf src s.ladder.records, x.wait = none) → exec (.waitLimitExpiry src) s = .next s)

/-- The target rpm is the active demand's rpm, or the idle rpm of an empty ladder, raised to a present floor, lowered to
the least present ceiling and clamped to 700 to 2100; the next rpm is formed so from the second record, or 0; neither
exceeds a present ceiling of 700 or more (R116 to R118). -/
def Obligations.TargetKeepsUnderCeilings : Prop :=
  ∀ L : Ladder,
    (L.records = [] → BoundedRpm L L.config.idle (formTarget L)) ∧
    (∀ d ds, L.records = d :: ds → BoundedRpm L d.rpm (formTarget L)) ∧
    (∀ d e ds, L.records = d :: e :: ds → BoundedRpm L e.rpm (formNext L)) ∧
    (L.records.length ≤ 1 → formNext L = 0) ∧
    (700 ≤ formTarget L ∧ formTarget L ≤ 2100) ∧ (formNext L = 0 ∨ 700 ≤ formNext L ∧ formNext L ≤ 2100) ∧
    ∀ c, CeilingPresent L c → 700 ≤ c → formTarget L ≤ c ∧ formNext L ≤ c

/-- SET_LADDER replaces the configuration by its values as clamped, or is refused for an order mode code; each record
takes its source's new level and keeps the rest, and the ladder stands in the order of R104 (R123). SET_ECONOMY
replaces its configuration as clamped, with T2 not below T1, and a shutdown delay of 0 stops the watch (R114, R124).
Both are marked dirty, rewrite target and next rpm and answer with the values as taken. The values of a BAD_FIELD
answer are log 25's choice, and the answer stands behind the step's notices by log 13. -/
def Obligations.LadderAndEconomyAreReplaced : Prop :=
  (∀ (s : State) (q : LadderRequest), Offered s .sl .setLadder (.ladder q) →
    (takeOrders q.orders = none →
      exec (.setLadder .sl) s = .next (answer .sl .setLadder .badField (.received (.ladder q)) s)) ∧
    ∀ o, takeOrders q.orders = some o →
      let c : LadderConfig :=
        { levels := eightMap (fun n => min 7 n) q.levels, orders := o
          power := max 700 (min 2100 q.power), standard := max 700 (min 2100 q.standard)
          economy := max 700 (min 2100 q.economy), lift := max 700 (min 2100 q.lift), idle := max 700 (min 2100 q.idle)
          travel := max 700 (min 2100 q.travel), boost := max 700 (min 2100 q.boost)
          boostTime := max 1 (min 60 q.boostTime) }
      ∃ t, exec (.setLadder .sl) s = .next t ∧
        (∀ y ∈ t.ladder.records, y.level = srcGet c.levels y.source ∧
          ∃ old ∈ s.ladder.records, old.source = y.source ∧ old.rpm = y.rpm ∧ old.duration = y.duration ∧
            old.stamp = y.stamp ∧ old.origin = y.origin) ∧
        (∀ old ∈ s.ladder.records, old.expired = false → old.duration ≠ some 0 →
          ∃ y ∈ t.ladder.records, y.source = old.source) ∧
        (s.ladder.records.Pairwise (fun x y => x.stamp ≠ y.stamp) →
          t.ladder.records.Pairwise fun x y => standsAhead c x y = true) ∧
        LadderFrame { s with ladder := { s.ladder with config := c }, store := t.store } t ∧
        t.store = (markDirty .ladder { s with ladder := t.ladder }).store ∧
        AnsweredLast s t .sl (.response 144 .ok (.ladder c))) ∧
  ∀ (s : State) (q : Economy), Offered s .sl .setEconomy (.economy q) →
    let e : Economy :=
      { fleetCap := if q.fleetCap ≤ 0 then 0 else max 700 (min 2100 q.fleetCap)
        idleDelay := max 3 (min 600 q.idleDelay)
        shutdownDelay := if q.shutdownDelay ≤ 0 then 0 else max 60 (min 3600 q.shutdownDelay)
        t1 := max (-40) (min 150 q.t1), c1 := max 700 (min 2100 q.c1)
        t2 := max (max (-40) (min 150 q.t1)) (max (-40) (min 150 q.t2)), c2 := max 700 (min 2100 q.c2)
        warmThreshold := max (-40) (min 150 q.warmThreshold), warmFloor := max 700 (min 2100 q.warmFloor)
        derate := max 700 (min 2100 q.derate) }
    let L : Ladder := { s.ladder with
      economy := e, shutdownTimer := if e.shutdownDelay = 0 then none else s.ladder.shutdownTimer
      advise := s.ladder.advise && decide (e.shutdownDelay ≠ 0) }
    exec (.setEconomy .sl) s = .next
      (answer .sl .setEconomy .ok (.economy e) (markDirty .economy
        { s with
          ladder := { L with target := formTarget L, next := formNext L }
          output := { s.output with pending := { s.output.pending with
            target := formTarget L, next := formNext L, advise := L.advise } } }))

/-! ## The duty accumulators -/

/-- ENGINE_TIME at a hand-off: while the engine runs, the value rises by the whole seconds of remainder plus interval
and the remainder keeps the rest; otherwise it receives nothing (R128). A restart solve's interval is 0 (R127); the
limit of the range is R133's. -/
def Obligations.EngineTimeCountsRunningTime : Prop :=
  ∀ (h : DutyHandoff) (d : Duty), (h.slewChange = none → h.interval = 0) → d.engineMs < 1000 →
    d.values.p0.value < 4294967295 → d.values.p0.value + (d.engineMs + h.interval) / 1000 ≤ 4294967295 →
    ((h.engineValid = true ∧ 500 ≤ h.engine) ∨ h.engineValid = false →
      (integrate h d).values.p0.value = d.values.p0.value + (d.engineMs + h.interval) / 1000 ∧
      (integrate h d).engineMs = (d.engineMs + h.interval) % 1000) ∧
    (h.engineValid = true ∧ h.engine < 500 →
      (integrate h d).values.p0.value = d.values.p0.value ∧ (integrate h d).engineMs = d.engineMs)

/-- FUEL at a hand-off: rate times interval plus remainder, in 36000ths of a millilitre, whether or not the engine
runs; nothing while the channel is invalid (R130). A restart solve's interval is 0 (R127); the limit of the range is
R133's. -/
def Obligations.FuelIntegratesRate : Prop :=
  ∀ (h : DutyHandoff) (d : Duty), (h.slewChange = none → h.interval = 0) → 0 ≤ h.fuel → d.fuelRest < 36000 →
    d.values.p2.value < 1099511627775 →
    d.values.p2.value + (h.fuel.toNat * h.interval + d.fuelRest) / 36000 ≤ 1099511627775 →
    (h.fuelValid = true →
      (integrate h d).values.p2.value = d.values.p2.value + (h.fuel.toNat * h.interval + d.fuelRest) / 36000 ∧
      (integrate h d).fuelRest = (h.fuel.toNat * h.interval + d.fuelRest) % 36000) ∧
    (h.fuelValid = false →
      (integrate h d).values.p2.value = d.values.p2.value ∧ (integrate h d).fuelRest = d.fuelRest)

/-- LOAD_TIME counts running time in quarter milliseconds by its weight (R129); SLEW adds the magnitude of the slew
change of a solve that is no restart solve and raised no STEP (R131); a completed cycle adds 1 to CYCLES and a present
payload to TONNES, of which 0 leaves value and remainder as they were (R132). An addition that would carry an
accumulator past its greatest value leaves it there with its remainders at 0, those of ENGINE_TIME and FUEL too
(R133); that LOAD_TIME's quarter is among them, and that the remainders are 0 also after an addition, other than of
nothing, at the greatest value itself, is the model's reading (log 15). An interval of 0 leaves every remainder of
time and fuel. LOST marks and rated fuel stay. -/
def Obligations.LoadSlewAndCyclesIntegrate : Prop :=
  ∀ (h : DutyHandoff) (d : Duty),
    let t := integrate h d
    let w := if h.fuelValid = false then 8
      else if 100 * h.fuel < 25 * d.ratedFuel then 2
      else if 100 * h.fuel < 50 * d.ratedFuel then 4
      else if 100 * h.fuel < 75 * d.ratedFuel then 5
      else if 100 * h.fuel < 95 * d.ratedFuel then 6
      else 8
    let ms := d.loadMs + (d.loadQuarter + h.interval * w) / 4
    (h.slewChange ≠ none → (h.engineValid = true ∧ 500 ≤ h.engine) ∨ h.engineValid = false →
      d.values.p1.value < 4294967295 → d.values.p1.value + ms / 1000 ≤ 4294967295 →
      t.values.p1.value = d.values.p1.value + ms / 1000 ∧ t.loadMs = ms % 1000 ∧
      t.loadQuarter = (d.loadQuarter + h.interval * w) % 4) ∧
    (h.slewChange = none ∨ h.engineValid = true ∧ h.engine < 500 →
      t.values.p1 = d.values.p1 ∧ t.loadMs = d.loadMs ∧ t.loadQuarter = d.loadQuarter) ∧
    (∀ c, h.slewChange = some c → h.step = false → d.values.p3.value + c.natAbs ≤ 281474976710655 →
      t.values.p3.value = d.values.p3.value + c.natAbs) ∧
    (h.slewChange = none ∨ h.step = true → t.values.p3 = d.values.p3) ∧
    (h.completed = none → t.values.p4 = d.values.p4 ∧ t.values.p5 = d.values.p5 ∧ t.tonnesKg = d.tonnesKg) ∧
    (h.completed ≠ none → d.values.p4.value < 4294967295 → t.values.p4.value = d.values.p4.value + 1) ∧
    (h.completed = some none → t.values.p5 = d.values.p5 ∧ t.tonnesKg = d.tonnesKg) ∧
    (h.completed = some (some 0) → t.values.p5 = d.values.p5 ∧ t.tonnesKg = d.tonnesKg) ∧
    (h.interval = 0 → d.engineMs < 1000 → d.loadMs < 1000 → d.loadQuarter < 4 → d.fuelRest < 36000 →
      t.engineMs = d.engineMs ∧ t.loadMs = d.loadMs ∧ t.loadQuarter = d.loadQuarter ∧ t.fuelRest = d.fuelRest) ∧
    (∀ kg : Nat, 0 < kg → h.completed = some (some (kg : Int)) → d.values.p5.value < 4294967295 →
      d.values.p5.value + (d.tonnesKg + kg) / 1000 ≤ 4294967295 →
      t.values.p5.value = d.values.p5.value + (d.tonnesKg + kg) / 1000 ∧ t.tonnesKg = (d.tonnesKg + kg) % 1000) ∧
    (∀ a, (accGet t.values a).lost = (accGet d.values a).lost ∧
      (accGet d.values a).value ≤ (accGet t.values a).value ∧
      ((accGet d.values a).value = accumMax a → (accGet t.values a).value = accumMax a)) ∧
    (let running := (h.engineValid = true ∧ 500 ≤ h.engine) ∨ h.engineValid = false
     let full := fun (a : Accum) (added units : Nat) => 0 < added ∧ (accGet d.values a).value ≤ accumMax a ∧
       (accumMax a < (accGet d.values a).value + units ∨ (accGet d.values a).value = accumMax a)
     (h.slewChange ≠ none → running → full .engineTime h.interval ((d.engineMs + h.interval) / 1000) →
       t.values.p0.value = 4294967295 ∧ t.engineMs = 0) ∧
     (h.slewChange ≠ none → running → full .loadTime (h.interval * w) (ms / 1000) →
       t.values.p1.value = 4294967295 ∧ t.loadMs = 0 ∧ t.loadQuarter = 0) ∧
     (h.slewChange ≠ none → h.fuelValid = true →
         full .fuel (h.fuel.toNat * h.interval) ((h.fuel.toNat * h.interval + d.fuelRest) / 36000) →
       t.values.p2.value = 1099511627775 ∧ t.fuelRest = 0) ∧
     (∀ c, h.slewChange = some c → h.step = false → full .slew c.natAbs c.natAbs → t.values.p3.value = 281474976710655) ∧
     (∀ kg : Nat, h.completed = some (some (kg : Int)) → full .tonnes kg ((d.tonnesKg + kg) / 1000) →
       t.values.p5.value = 4294967295 ∧ t.tonnesKg = 0)) ∧
    t.ratedFuel = d.ratedFuel ∧ t.handed = d.handed

/-- ACCUM_SET of an accumulator refuses a value below the present one, and otherwise takes it with its LOST mark
cleared and its remainders kept, hands a changed basis value on, whose items are re-examined (R134, R143), and starts
or asks for a save behind the items' dirty marks (R136, log 14); RATED_FUEL sets the duty record (R137); ACCUM_READ
answers from the values as they stand (R138). The answer stands behind the step's notices by log 13; the BAD_FIELD
answer to a target that is none of the seven has log 25's values and log 17's row. -/
def Obligations.AccumulatorRequestsAct : Prop :=
  (∀ (s : State) (a : Accum) (v : Nat), Offered s .sl .accumSet (.accumSet (some (.accum a)) v) →
    let w := min (accumMax a) v
    (w < (accGet s.duty.values a).value →
      exec (.accumSet .sl) s = .next
        (answer .sl .accumSet .badField (.accumSet a w (accGet s.duty.values a)) s)) ∧
    ((accGet s.duty.values a).value ≤ w →
      ∃ t, exec (.accumSet .sl) s = .next t ∧
        t.duty = { s.duty with values := accSet s.duty.values a ⟨w, false⟩, handed := t.duty.handed } ∧
        accGet t.duty.handed a = w / unitsPer a ∧
        (∀ b, b ≠ a → accGet t.duty.handed b = accGet s.duty.handed b) ∧
        (let told := if w / unitsPer a = accGet s.duty.handed a then s
           else (List.range 24).foldl (reexamineItem a (w / unitsPer a)) s
         t.items = told.items ∧ t.ring = told.ring) ∧
        t.ladder.service = serviceWanted t.items ∧ t.store.save.isSome = true ∧
        AnsweredLast s t .sl (.response 193 .ok (.accumSet a w ⟨w, false⟩)) ∧
        (w / unitsPer a = accGet s.duty.handed a → s.ladder.service = serviceWanted s.items →
          t = answer .sl .accumSet .ok (.accumSet a w ⟨w, false⟩) (triggerSave { s with duty := t.duty })))) ∧
  (∀ (s : State) (v : Nat), Offered s .sl .accumSet (.accumSet none v) →
    exec (.accumSet .sl) s = .next (answer .sl .accumSet .badField (.received (.accumSet none v)) s)) ∧
  (∀ (s : State) (v : Nat), Offered s .sl .accumSet (.accumSet (some .ratedFuel) v) →
    exec (.accumSetRatedFuel .sl) s = .next
      (answer .sl .accumSet .ok (.ratedFuel (max 1 (min 10000 v)))
        (markDirty .duty { s with duty := { s.duty with ratedFuel := max 1 (min 10000 v) } }))) ∧
  ∀ (s : State) (d : Payload), Offered s .sl .accumRead d →
    exec (.accumRead .sl) s = .next
      (answer .sl .accumRead .ok
        (.accumRead (sixAccums fun a => decide ((accGet s.duty.values a).value ≠ 0))
          (sixAccums fun a => (accGet s.duty.values a).lost) s.duty.ratedFuel
          ((allAccums.filter fun a => decide ((accGet s.duty.values a).value ≠ 0)).map fun a =>
            (accGet s.duty.values a).value)) s)

/-! ## Service items and the reminder ring -/

/-- ACK_ITEM acknowledges an item in WARN, DUE or OVERDUE (R146) and ITEM_DEFINE defines an EMPTY one with its values
as clamped and its baseline at the present basis value (R148); each is refused for a number outside the table or a
code that names no choice, and answered WRONG_STATE in the other states. The values of a BAD_FIELD answer are log 25's
choice. -/
def Obligations.ItemsAreAcknowledgedAndDefined : Prop :=
  (∀ (s : State) (l : Link) (k : Nat), Offered s l .ackItem (.item k) → s.items.length = 24 →
    (24 ≤ k → exec (.ackItem l) s = .next (answer l .ackItem .badField (.received (.item k)) s)) ∧
    (k < 24 → ¬((itemAt s k).state = .warn ∨ (itemAt s k).state = .due ∨ (itemAt s k).state = .overdue) →
      exec (.ackItem l) s = .next (answer l .ackItem .wrongState (.item k (itemAt s k)) s)) ∧
    ∀ f, k < 24 → (itemAt s k).state = .warn ∨ (itemAt s k).state = .due ∨ (itemAt s k).state = .overdue →
      (itemAt s k).fields = some f →
      (f.acknowledged = true → exec (.ackItem l) s = .next (answer l .ackItem .ok (.item k (itemAt s k)) s)) ∧
      (f.acknowledged = false →
        let i : Item := { itemAt s k with fields := some { f with acknowledged := true }, nextRepeat := none }
        exec (.ackItem l) s = .next
          (answer l .ackItem .ok (.item k i) (markDirty (.item k) { s with items := s.items.set k i })))) ∧
  ∀ (s : State) (k : Nat) (b : Option Accum) (v : Option Severity) (interval warnAhead overdueAfter repeatEvery : Nat),
    Offered s .sl .itemDefine (.itemDefine k b v interval warnAhead overdueAfter repeatEvery) → s.items.length = 24 →
    (24 ≤ k ∨ b = none ∨ v = none →
      exec (.itemDefine .sl) s = .next
        (answer .sl .itemDefine .badField
          (.received (.itemDefine k b v interval warnAhead overdueAfter repeatEvery)) s)) ∧
    ∀ a w, k < 24 → b = some a → v = some w →
      ((itemAt s k).state ≠ .empty →
        exec (.itemDefine .sl) s = .next (answer .sl .itemDefine .wrongState (.item k (itemAt s k)) s)) ∧
      ((itemAt s k).state = .empty →
        let n := max 1 (min 65535 interval)
        let f : ItemFields :=
          { basis := a, severity := w, interval := n, warnAhead := min n warnAhead
            overdueAfter := max 1 (min 65535 overdueAfter), repeatEvery := min 65535 repeatEvery
            baseline := accGet s.duty.handed a, acknowledged := false }
        let i : Item :=
          { state := if n ≤ warnAhead then .warn else .dormant, fields := some f, nextRepeat := none, lastNotice := none }
        exec (.itemDefine .sl) s = .next
          (answer .sl .itemDefine .ok (.item k i) (markDirty (.item k) { s with items := s.items.set k i })))

/-- SERVICE_DONE of a serviceable item sets the baseline to the present basis value and the state to DORMANT, produces
the RESET notice and passes the SERVICE request on (R145, R147). ITEM_RETIRE makes an item EMPTY at once with
RETIRE_DONE, or RETIRING while the ring holds its newest notice (R149). Both are answered WRONG_STATE where they do
not act. The answer of SERVICE_DONE stands behind the step's notices, and RETIRE_DONE behind that of ITEM_RETIRE (log
13); the values of a BAD_FIELD answer are log 25's choice. -/
def Obligations.ItemsAreServicedAndRetired : Prop :=
  (∀ (s : State) (k : Nat), Offered s .sl .serviceDone (.item k) → RingInv s → s.items.length = 24 →
    (24 ≤ k → exec (.serviceDone .sl) s = .next (answer .sl .serviceDone .badField (.received (.item k)) s)) ∧
    (k < 24 → (itemAt s k).fields = none ∨ (itemAt s k).state = .empty ∨ (itemAt s k).state = .retiring →
      exec (.serviceDone .sl) s = .next (answer .sl .serviceDone .wrongState (.item k (itemAt s k)) s)) ∧
    ∀ f, k < 24 → (itemAt s k).fields = some f → (itemAt s k).state ≠ .empty → (itemAt s k).state ≠ .retiring →
      let basis := accGet s.duty.handed f.basis
      ∃ t, exec (.serviceDone .sl) s = .next t ∧
        (itemAt t k).state = .dormant ∧ (itemAt t k).fields = some { f with baseline := basis, acknowledged := false } ∧
        (itemAt t k).nextRepeat = none ∧
        (s.ring.service.unread < 32 → (itemAt t k).lastNotice = some s.ring.put ∧
          t.ring.slots.getD s.ring.put none = some ⟨k, .reset, .dormant, basis, f.severity⟩) ∧
        (s.ring.service.unread = 32 → (itemAt t k).lastNotice = (itemAt s k).lastNotice ∧ t.ring.slots = s.ring.slots ∧
          t.ring.service.lost = true) ∧
        (∀ j, j ≠ k → (itemAt s j).state ≠ .retiring →
          (itemAt t j).state = (itemAt s j).state ∧ (itemAt t j).fields = (itemAt s j).fields ∧
          (itemAt t j).nextRepeat = (itemAt s j).nextRepeat) ∧
        t.ladder.service = serviceWanted t.items ∧ t.duty = s.duty ∧ t.table = s.table ∧ t.solver = s.solver ∧
        AnsweredLast s t .sl (.response 177 .ok (.item k (itemAt t k)))) ∧
  (∀ s : State, (syncService s).ladder.service = serviceWanted s.items) ∧
  ∀ (s : State) (k : Nat), Offered s .sl .itemRetire (.item k) → s.items.length = 24 →
    (24 ≤ k → exec (.itemRetire .sl) s = .next (answer .sl .itemRetire .badField (.received (.item k)) s)) ∧
    (k < 24 → (itemAt s k).state = .empty ∨ (itemAt s k).state = .retiring →
      exec (.itemRetire .sl) s = .next (answer .sl .itemRetire .wrongState (.item k (itemAt s k)) s)) ∧
    (k < 24 → (itemAt s k).state ≠ .empty → (itemAt s k).state ≠ .retiring →
      ((itemAt s k).lastNotice = none →
        exec (.itemRetire .sl) s = .next
          (sendNotice .sl (.retireDone k)
            (answer .sl .itemRetire .ok (.item k emptyItem)
              (markDirty (.item k) (syncService { s with items := s.items.set k emptyItem }))))) ∧
      ∀ p, (itemAt s k).lastNotice = some p →
        let i : Item := { state := .retiring, fields := none, nextRepeat := none, lastNotice := some p }
        exec (.itemRetire .sl) s = .next
          (answer .sl .itemRetire .ok (.item k i)
            (markDirty (.item k) (syncService { s with items := s.items.set k i }))))

/-- An item re-examined at a new basis value (R143): a state that its progress selects above the present one is taken
with one RISE notice, and a rise into DUE or OVERDUE clears acknowledged and sets next_repeat; otherwise state and
fields stay, and a repeat point that is reached produces one REPEAT and moves by repeat_every past the basis value,
absent only beyond 4294967295 (R144), or where repeat_every is 0, which no run reaches (log 20). A notice reaches the
ring and the ports as every notice does (R154). A rise that clears an acknowledged that was set marks the item's
record dirty, which is a save trigger (R152, R187; the order among several marks: log 14), and nothing else reaches
the store. An item that does not follow its progress is passed over (R142). -/
def Obligations.ItemsFollowProgress : Prop :=
  ∀ (s : State) (k basis : Nat) (f : ItemFields), RingInv s → (itemAt s k).fields = some f →
    let i := itemAt s k
    let p := basis - f.baseline
    let n : ItemState := if p < f.interval - f.warnAhead then .dormant else if p < f.interval then .warn
      else if p < f.interval + f.overdueAfter then .due else .overdue
    let u := reexamineItem f.basis basis s k
    let told := fun kind t =>
      (s.ring.service.unread < 32 →
        u.ring.slots.getD s.ring.put none = some ⟨k, kind, t, basis, f.severity⟩ ∧
          (itemAt u k).lastNotice = some s.ring.put) ∧
      (∀ j, j ≠ k → itemAt u j = itemAt (produceNotice ⟨k, kind, t, basis, f.severity⟩ s) j) ∧
      u.ring = (produceNotice ⟨k, kind, t, basis, f.severity⟩ s).ring ∧
      u.ports = (produceNotice ⟨k, kind, t, basis, f.severity⟩ s).ports
    u = { s with items := u.items, ring := u.ring, ports := u.ports, store := u.store } ∧
    (stateRank i.state = none → u = s) ∧
    ∀ old new, stateRank i.state = some old → stateRank n = some new →
      (if old < new ∧ (n = .due ∨ n = .overdue) ∧ f.acknowledged = true then
        u.store = (triggerSave { u with store := { s.store with
          dirty := imageOrder.filter fun x => decide (x = .item k) || decide (x ∈ s.store.dirty) } }).store
        else u.store = s.store) ∧
      (old < new → (itemAt u k).state = n ∧ told .rise n ∧
        (n = .warn → (itemAt u k).fields = some f ∧ (itemAt u k).nextRepeat = i.nextRepeat) ∧
        (n = .due ∨ n = .overdue →
          (itemAt u k).fields = some { f with acknowledged := false } ∧
          (itemAt u k).nextRepeat = if f.repeatEvery = 0 ∨ 4294967295 < basis + f.repeatEvery then none
            else some (basis + f.repeatEvery))) ∧
      (new ≤ old → (itemAt u k).state = i.state ∧ (itemAt u k).fields = some f ∧
        ((i.state = .dormant ∨ i.state = .warn ∨ f.acknowledged = true ∨ ∀ r, i.nextRepeat = some r → basis < r) →
          u = s) ∧
        ∀ r, (i.state = .due ∨ i.state = .overdue) → f.acknowledged = false → i.nextRepeat = some r → r ≤ basis →
          told .repeated i.state ∧
          (let n := r + f.repeatEvery * ((basis - r) / f.repeatEvery + 1)
           (itemAt u k).nextRepeat = (if f.repeatEvery = 0 ∨ 4294967295 < n then none else some n) ∧
           (f.repeatEvery ≠ 0 → basis < n ∧ n ≤ basis + f.repeatEvery)))

/-- RING_READ returns up to four notices from the reader's get index onward and changes nothing (R156); RING_ADVANCE
moves the cursor past the position named, releases what is no longer held and re-arms, or refuses a position outside
the unread span (R155, R157, R160); RING_CLEAR_LOST clears the caller's lost flag and may set its watermark (R159).
The answer of RING_ADVANCE stands behind its RETIRE_DONE by log 13, and the values of its BAD_FIELD answer are log
25's choice. -/
def Obligations.RingReadersReadAndAdvance : Prop :=
  ∀ (s : State) (l : Link), l ≠ .ml →
    let me := readerOfLink l
    let x := readerOf s.ring me
    (∀ d, Offered s l .ringRead d → RingInv s →
      ∃ ns : List PlacedNotice,
        exec (.ringRead l) s = .next (answer l .ringRead .ok (.ringRead x.unread x.lost ns) s) ∧
        ns.length = min 4 x.unread ∧
        ∀ j n, ns[j]? = some n →
          n.position = (x.get + j) % 32 ∧ s.ring.slots.getD n.position none = some n.notice) ∧
    (∀ p, Offered s l .ringAdvance (.ringAdvance p) → RingInv s →
      (32 ≤ p ∨ x.unread ≤ (p + 32 - x.get) % 32 →
        exec (.ringAdvance l) s = .next (answer l .ringAdvance .badField (.received (.ringAdvance p)) s)) ∧
      (p < 32 → (p + 32 - x.get) % 32 < x.unread →
        let n := (p + 32 - x.get) % 32 + 1
        ∃ t, exec (.ringAdvance l) s = .next t ∧
          readerOf t.ring me =
            { get := (p + 1) % 32, unread := x.unread - n, lost := x.lost, watermark := x.watermark
              armed := x.armed || decide (x.unread - n < x.watermark) } ∧
          (∀ r, r ≠ me → readerOf t.ring r = readerOf s.ring r) ∧ t.ring.put = s.ring.put ∧
          (∀ q < 32, t.ring.slots.getD q none = if isHeld t.ring q then s.ring.slots.getD q none else none) ∧
          (∀ k q, (itemAt s k).lastNotice = some q → isHeld t.ring q = false →
            itemAt t k = if (itemAt s k).state = .retiring then emptyItem
              else { itemAt s k with lastNotice := none }) ∧
          (∀ k, (∀ q, (itemAt s k).lastNotice = some q → isHeld t.ring q = true) → itemAt t k = itemAt s k) ∧
          t = { s with ports := t.ports, ring := t.ring, items := t.items } ∧
          AnsweredLast s t l (.response 97 .ok (.ringAdvance p n ((p + 1) % 32) (x.unread - n))))) ∧
    (Offered s l .ringClearLost (.ringClearLost none) →
      exec (.ringClearLost l) s = .next
        (answer l .ringClearLost .ok (.ringLost x.lost x.unread x.watermark)
          { s with ring := setReader me { x with lost := false } s.ring })) ∧
    ∀ w, Offered s l .ringClearLost (.ringClearLost (some w)) →
      let y := { x with lost := false, watermark := min 32 w, armed := decide (x.unread < min 32 w) }
      exec (.ringClearLost l) s = .next
        (answer l .ringClearLost .ok (.ringLost x.lost x.unread (min 32 w))
          (markDirty .watermark { s with ring := setReader me y s.ring }))

/-- A notice handed to the ring is written at the put index for both readers, the cab's oldest first dropped when the
cab reader is full, which may complete a retire (R150); while the service reader is full it is lost to both (R154).
Its position goes to its item. An armed reader whose count reaches its watermark is sent RING_WATERMARK on its link,
with its count and its lost flag, and disarmed; otherwise nothing is sent (R160). -/
def Obligations.NoticesReachBothReaders : Prop :=
  ∀ (n : Notice) (s : State), RingInv s →
    let t := produceNotice n s
    (s.ring.service.unread = 32 →
      t = { s with ring := { s.ring with service := { s.ring.service with lost := true } } }) ∧
    (s.ring.service.unread < 32 →
      t.ring.slots.getD s.ring.put none = some n ∧ t.ring.put = (s.ring.put + 1) % 32 ∧
      t.ring.service.get = s.ring.service.get ∧ t.ring.service.unread = s.ring.service.unread + 1 ∧
      t.ring.service.lost = s.ring.service.lost ∧
      (s.ring.cab.unread < 32 → t.ring.cab.get = s.ring.cab.get ∧ t.ring.cab.unread = s.ring.cab.unread + 1 ∧
        t.ring.cab.lost = s.ring.cab.lost) ∧
      (s.ring.cab.unread = 32 → t.ring.cab.get = (s.ring.cab.get + 1) % 32 ∧ t.ring.cab.unread = 32 ∧
        t.ring.cab.lost = true) ∧
      (n.item < s.items.length → (itemAt t n.item).lastNotice = some s.ring.put) ∧
      (∀ r, let x := readerOf s.ring r
        let y := readerOf t.ring r
        y.watermark = x.watermark ∧
        y.armed = (x.armed && !(decide (x.watermark ≠ 0) && decide (x.watermark ≤ y.unread)))) ∧
      (let told := fun r => (readerOf s.ring r).armed = true ∧ (readerOf s.ring r).watermark ≠ 0 ∧
         (readerOf s.ring r).watermark ≤ (readerOf t.ring r).unread
       let retired := (List.range s.items.length).filter fun k =>
         decide (s.ring.cab.unread = 32) && decide ((itemAt s k).state = .retiring) &&
           decide ((itemAt s k).lastNotice = some s.ring.cab.get)
       let v := retired.foldl (fun u k => sendNotice .sl (.retireDone k) u) s
       let mark := fun r => TxBody.ringWatermark r (readerOf t.ring r).unread (readerOf t.ring r).lost
       portOf t .ml = portOf s .ml ∧
       (told .cab → portOf t .cl = portOf (sendNotice .cl (mark .cab) s) .cl) ∧
       (¬told .cab → portOf t .cl = portOf s .cl) ∧
       (told .service → portOf t .sl = portOf (sendNotice .sl (mark .service) v) .sl) ∧
       (¬told .service → portOf t .sl = portOf v .sl)) ∧
      AllOnlySend s t ∧ t.duty = s.duty ∧ t.ladder = s.ladder ∧ t.store = s.store ∧ t.stamps = s.stamps)

/-! ## Output, stamps and store -/

/-- OUTPUT_PERIOD_EXPIRY copies the pending set whole into the active set, hands OUTPUT with all of it but the binding
zones to ML and restarts the timer with the period in force (R164, R166); CAB_VIEW_EXPIRY hands CAB_VIEW, formed as
R170 gives, to CL and restarts its timer with 100 ms (R169). A periodic frame without a free place or on a port that
is BUS_OFF is discarded (R182, R183). Both after the remaining time has passed (log 2). -/
def Obligations.OutputAndCabViewGoOut : Prop :=
  (∀ (s : State) (n : Nat), s.output.periodTimer = some n →
    let u := elapse n s
    let p := portOf s .ml
    exec .outputPeriodExpiry s = .next
      (setPort .ml
        (if p.state = .active ∧ p.tx.length + p.reserved < 8 then
          { p with tx := p.tx ++ [⟨makeIdent 1 256 p.nodes.partner p.nodes.own, .output
            { seq := s.output.pending.seq, scales := s.output.pending.scales, target := s.output.pending.target
              next := s.output.pending.next, fallback := s.output.pending.fallback, advise := s.output.pending.advise
              quality := s.output.pending.quality, phase := s.output.pending.phase }⟩] } else p)
        { u with output := { u.output with active := s.output.pending, periodTimer := some s.output.period } })) ∧
  (∀ s : State, s.output.periodTimer = none → exec .outputPeriodExpiry s = .next s) ∧
  (∀ (s : State) (n : Nat), s.output.cabTimer = some n →
    let u := elapse n s
    let p := portOf s .cl
    let shown := s.solver.pose.quality = .good ∨ s.solver.pose.quality = .degraded
    ∃ v : CabView,
      exec .cabViewExpiry s = .next
        (setPort .cl
          (if p.state = .active ∧ p.tx.length + p.reserved < 8 then
            { p with tx := p.tx ++ [⟨makeIdent 5 257 p.nodes.partner p.nodes.own, .cabView v⟩] } else p)
          { u with output := { u.output with cabTimer := some 100 } }) ∧
      (shown → v.tip = s.solver.pose.points.map Points.p3 ∧ v.psi = s.solver.pose.psi ∧
        v.offset = s.solver.pose.offset) ∧
      (¬shown → v.tip = none ∧ v.psi = none ∧ v.offset = none) ∧
      v.cue = s.solver.pose.cue ∧ v.phase = s.output.active.phase ∧
      v.payload = s.aid.last.bind CycleRecord.payload ∧
      v.ccwScale = s.output.active.scales.p4 ∧ v.ccwBinding = s.output.active.binding.p4 ∧
      v.cwScale = s.output.active.scales.p5 ∧ v.cwBinding = s.output.active.binding.p5 ∧
      v.target = s.output.active.target ∧ v.quality = s.output.active.quality ∧
      v.unread = s.ring.cab.unread ∧ v.lost = s.ring.cab.lost ∧
      (v.summary = none ↔ ∀ i ∈ s.items, i.state = .empty ∨ i.state = .retiring) ∧
      ∀ x, v.summary = some x →
        (∃ i ∈ s.items, i.state = x.state ∧ (x.severity = .critical → isCritical i = true)) ∧
        ∀ i ∈ s.items, ∀ a b, viewRank i.state = some a → viewRank x.state = some b →
          a ≤ b ∧ (a = b → isCritical i = true → x.severity = .critical)) ∧
  ∀ s : State, s.output.cabTimer = none → exec .cabViewExpiry s = .next s

/-- SET_OUTPUT_PERIOD takes the period clamped to 10 to 100, restarts the period timer with it and marks its record
dirty (R167); STATUS_QUERY answers part state, active set, pose record, period and the port's overrun flag (R168), and
IDENTIFY the part's codes and the port's numbers and flag (R185); both then clear that flag. -/
def Obligations.OutputPeriodStatusAndIdentify : Prop :=
  (∀ (s : State) (ms : Int), Offered s .sl .setOutputPeriod (.outputPeriod ms) →
    let n := (max 10 (min 100 ms)).toNat
    exec (.setOutputPeriod .sl) s = .next
      (answer .sl .setOutputPeriod .ok (.period n)
        (markDirty .outputPeriod { s with output := { s.output with period := n, periodTimer := some n } }))) ∧
  ∀ (s : State) (l : Link) (d : Payload),
    let clear := setPort l { portOf s l with overrun := false } s
    (Offered s l .statusQuery d →
      exec (.statusQuery l) s = .next
        (answer l .statusQuery .ok
          (.status s.part s.output.active s.solver.pose s.output.period (portOf s l).overrun) clear)) ∧
    (Offered s l .identify d →
      exec (.identify l) s = .next
        (answer l .identify .ok (.identify 1187 2740 3 s.part (portOf s l).nodes (portOf s l).overrun) clear))

/-- A stamp event makes an EMPTY slot HELD and only marks the hidden overflow of a HELD one (R173). STAMP_READ answers
the slot's record and its hidden overflow, makes the slot EMPTY with the hidden overflow moved into the visible one,
and leaves every other slot; a code that names no slot is refused (R176), with log 25's choice of the answer's values. -/
def Obligations.StampsHoldFirstEventUntilRead : Prop :=
  (∀ (α : Type) (slot : Slot α) (r : α),
    (slot.held = none → raiseSlot slot r = { slot with held := some r }) ∧
    (slot.held ≠ none → raiseSlot slot r = { slot with hidden := true })) ∧
  (∀ (s : State) (l : Link) (k : StampKind), Offered s l .stampRead (.stampRead (some k)) →
    exec (.stampRead l) s = .next
      (answer l .stampRead .ok (.stamp k (slotRecord s.stamps k) (slotHidden s.stamps k))
        { s with stamps := readStamp s.stamps k })) ∧
  (∀ (s : State) (l : Link), Offered s l .stampRead (.stampRead none) →
    exec (.stampRead l) s = .next (answer l .stampRead .badField (.received (.stampRead none)) s)) ∧
  ∀ (x : Stamps) (k : StampKind),
    slotRecord (readStamp x k) k = none ∧ slotHidden (readStamp x k) k = false ∧
    slotVisible (readStamp x k) k = slotHidden x k ∧
    ∀ j, j ≠ k → slotRecord (readStamp x k) j = slotRecord x j ∧ slotHidden (readStamp x k) j = slotHidden x j ∧
      slotVisible (readStamp x k) j = slotVisible x j

/-- A trigger while IDLE starts a save of the dirty records and all accumulators in the order of the image table, and
sets save-again while SAVING (R187). The snapshot of a record, written whole, leaves the image holding what the block
then held: of zones and the grade plane a SITE one alone, of an item its fields, but none of an EMPTY or RETIRING one
(section 11.4, R56, R152; of an entry that is not SITE, and a FAULTED one, no zone: log 26). Each SAVE_RECORD_READBACK
writes the next record, spoiled and dirty again after a mismatch (R188). SAVE_COMPLETION sends an owed SAVE_DONE
(R190) and then resets the part (R191), starts the further save or leaves the store IDLE. That a timer's expiry passes
its remaining time is log 2's choice, that the save timer stops from an expiry to the next start log 24's, and what
the blocks hold after the reset of a restart save log 8's. -/
def Obligations.SavesWriteSnapshots : Prop :=
  (∀ s : State,
    (s.store.save = none → ∃ todo : List SnapRecord,
      triggerSave s = { s with store := { s.store with
        save := some ⟨todo, 0, 0, s.store.keyOff, s.store.restartPending⟩
        dirty := [], keyOff := false, timer := some 360000 } } ∧
      todo.map snapId = imageOrder.filter (fun r => isAccumRecord r || decide (r ∈ s.store.dirty)) ∧
      ∀ x ∈ todo, x = snapshot s (snapId x)) ∧
    ∀ v, s.store.save = some v →
      triggerSave s = if v.isRestart then s else { s with store := { s.store with again := true } }) ∧
  (∀ (s : State) (m : Image) (ok : Bool),
    let written := fun r : RecordId => putRecord ok (snapshot s r) m
    (∀ r, snapId (snapshot s r) = r) ∧
    written .nodes = { m with nodes := storedAs ok s.store.nodes } ∧
    (∀ g, s.solver.geometry = .present g → written .geometry = { m with geometry := storedAs ok g }) ∧
    written .solver = { m with solver := storedAs ok s.solver.control } ∧
    (∀ n,
      let holds := fun z : Option StoredZone => written (.zone n) = { m with zones := m.zones.set n (storedAs ok z) }
      (∀ b, zoneAt s n = .active .site b → holds (some ⟨true, b⟩)) ∧
      (∀ b, zoneAt s n = .suspended .site b → holds (some ⟨false, b⟩)) ∧
      ((∀ b, zoneAt s n ≠ .active .site b ∧ zoneAt s n ≠ .suspended .site b) → holds none)) ∧
    (∀ b, s.table.plane = .present .site b → written .grade = { m with grade := storedAs ok (some b) }) ∧
    ((∀ b, s.table.plane ≠ .present .site b) → written .grade = { m with grade := storedAs ok none }) ∧
    written .aid = { m with aid := storedAs ok s.aid.record } ∧
    written .payloadTable = { m with payloadTable := storedAs ok s.aid.table } ∧
    written .ladder = { m with ladder := storedAs ok s.ladder.config } ∧
    written .economy = { m with economy := storedAs ok s.ladder.economy } ∧
    written .duty = { m with duty := storedAs ok s.duty.ratedFuel } ∧
    (∀ a, written (.accumulator a) =
      { m with accumulators := accSet m.accumulators a (storedAs ok (accGet s.duty.values a)) }) ∧
    (∀ n,
      let holds := fun f : Option ItemFields => written (.item n) = { m with items := m.items.set n (storedAs ok f) }
      ((itemAt s n).state = .empty ∨ (itemAt s n).state = .retiring → holds none) ∧
      ((itemAt s n).state ≠ .empty → (itemAt s n).state ≠ .retiring → holds (itemAt s n).fields)) ∧
    written .watermark = { m with watermark := storedAs ok ⟨s.ring.cab.watermark, s.ring.service.watermark⟩ } ∧
    written .outputPeriod = { m with outputPeriod := storedAs ok s.output.period } ∧
    ∀ (α : Type) (x : α), storedAs true x = .good x ∧ storedAs false x = .bad) ∧
  (∀ (s : State) (n : Nat), s.store.timer = some n →
    exec .saveTimerExpiry s = .next
      (triggerSave { elapse n s with store := { (elapse n s).store with timer := none } })) ∧
  (∀ (s : State) (v : Save) (r : SnapRecord) (rest : List SnapRecord), s.store.save = some v → v.todo = r :: rest →
    let next := { v with todo := rest, written := v.written + 1 }
    exec (.saveRecordReadback false) s = .next
      { s with store := { s.store with image := putRecord true r s.store.image, save := some next } } ∧
    exec (.saveRecordReadback true) s = .next
      { s with
        store := { s.store with
          image := putRecord false r s.store.image, save := some { next with mismatches := v.mismatches + 1 }
          dirty := if isAccumRecord (snapId r) then s.store.dirty
            else imageOrder.filter fun x => decide (x = snapId r) || decide (x ∈ s.store.dirty) }
        stamps := { s.stamps with storeFault := raiseSlot s.stamps.storeFault ⟨.readback, snapId r⟩ } }) ∧
  ∀ (s : State) (v : Save), s.store.save = some v → v.todo = [] →
    let u := if v.owesDone then sendNotice .ml (.saveDone v.written v.mismatches) s else s
    (v.isRestart = true →
      exec .saveCompletion s = .next
        { State.reset with store := { State.reset.store with image := s.store.image }, pending := s.pending }) ∧
    (v.isRestart = false → s.store.again = true →
      exec .saveCompletion s = .next
        (triggerSave { u with store := { s.store with save := none, again := false } })) ∧
    (v.isRestart = false → s.store.again = false →
      exec .saveCompletion s = .next { u with store := { s.store with save := none } })

/-- KEY_OFF sets the key-off mark, triggers a save and answers the save state as the trigger left it (R189). RESTART
refuses a node record in which an own node equals its partner; otherwise it places the record, dirty, and sets the
pending mark, triggers one save and is answered OK (R191, log 23). The values of its BAD_FIELD answer are log 25's
choice. -/
def Obligations.KeyOffAndRestartTriggerSaves : Prop :=
  (∀ (s : State) (d : Payload), Offered s .ml .keyOff d →
    let u := triggerSave { s with store := { s.store with keyOff := true } }
    exec (.keyOff .ml) s = .next (answer .ml .keyOff .ok (.keyOff true u.store.again) u)) ∧
  (∀ s : State, Offered s .sl .restart (.restart none) →
    exec (.restart .sl) s = .next
      (answer .sl .restart .ok (.restart none)
        (triggerSave { s with store := { s.store with restartPending := true } }))) ∧
  ∀ (s : State) (n : NodesRecord), Offered s .sl .restart (.restart (some n)) →
    (n.ml.own = n.ml.partner ∨ n.cl.own = n.cl.partner ∨ n.sl.own = n.sl.partner →
      exec (.restart .sl) s = .next (answer .sl .restart .badField (.received (.restart (some n))) s)) ∧
    (¬(n.ml.own = n.ml.partner ∨ n.cl.own = n.cl.partner ∨ n.sl.own = n.sl.partner) →
      exec (.restart .sl) s = .next
        (answer .sl .restart .ok (.restart (some n))
          (triggerSave { s with store := { s.store with
            nodes := n, restartPending := true
            dirty := imageOrder.filter fun x => decide (x = .nodes) || decide (x ∈ s.store.dirty) } })))

/-- SET_SOLVER replaces the solver control as clamped, at once, and leaves a solve in flight its latched copy; it is
refused for a rounding code or an enable outside the five (R38). SET_AIDS replaces the aid record as clamped, refused
for an N that is not 1, 4 or 16 (R99), or the payload table, refused unless its r values strictly increase (R100).
Each marks its record dirty and answers with the values as taken. The values of the BAD_FIELD answers are log 25's
choice, and the row that takes an unnamed part selector is log 17's. -/
def Obligations.SolverAndAidRecordsAreReplaced : Prop :=
  (∀ (s : State) (m : Option Rounding) (en : CauseMarks) (alien flush : Bool) (band limit : Int),
    Offered s .sl .setSolver (.solver m en alien flush band limit) →
    (m = none ∨ alien = true →
      exec (.setSolver .sl) s = .next
        (answer .sl .setSolver .badField (.received (.solver m en alien flush band limit)) s)) ∧
    ∀ k, m = some k → alien = false →
      let c : SolverControl :=
        { rounding := k, enables := en, flush := flush, deadBand := max 0 (min 2000 band)
          staleLimit := max 40 (min 500 limit) }
      exec (.setSolver .sl) s = .next
        (answer .sl .setSolver .ok (.solver c)
          (markDirty .solver { s with solver := { s.solver with control := c } }))) ∧
  (∀ (s : State) (q : AidRecord), Offered s .sl .setAids (.aidThresholds q) → q.wf = true →
    (q.prescale ≠ 1 → q.prescale ≠ 4 → q.prescale ≠ 16 →
      exec (.setAidsThresholds .sl) s = .next
        (answer .sl .setAids .badField (.received (.aidThresholds q)) s)) ∧
    (q.prescale = 1 ∨ q.prescale = 4 ∨ q.prescale = 16 →
      let r : AidRecord :=
        { q with
          digPressure := max 0 (min 65000 q.digPressure), omegaStill := max 0 (min 40000 q.omegaStill)
          omegaSwing := max 0 (min 40000 q.omegaSwing), timeout := max 5 (min 120 q.timeout)
          settle := max 0 (min 15 q.settle), boostPressure := max 0 (min 65000 q.boostPressure)
          headArea := max 0 (min 2000000 q.headArea), rodArea := max 0 (min 2000000 q.rodArea) }
      exec (.setAidsThresholds .sl) s = .next
        (answer .sl .setAids .ok (.aidRecord r)
          (markDirty .aid { s with aid := { s.aid with record := r } })))) ∧
  (∀ s : State, Offered s .sl .setAids .aidOther →
    exec (.setAidsThresholds .sl) s = .next (answer .sl .setAids .badField (.received .aidOther) s)) ∧
  ∀ (s : State) (q : Eight PayloadPoint), Offered s .sl .setAids (.aidTable q) → tableWf q = true →
    let rising := q.p0.reach < q.p1.reach ∧ q.p1.reach < q.p2.reach ∧ q.p2.reach < q.p3.reach ∧
      q.p3.reach < q.p4.reach ∧ q.p4.reach < q.p5.reach ∧ q.p5.reach < q.p6.reach ∧ q.p6.reach < q.p7.reach
    let t := eightMap (fun p : PayloadPoint => { p with gain := max 0 (min 10000 p.gain) }) q
    (¬rising →
      exec (.setAidsTable .sl) s = .next (answer .sl .setAids .badField (.received (.aidTable q)) s)) ∧
    (rising →
      exec (.setAidsTable .sl) s = .next
        (answer .sl .setAids .ok (.aidTable t) (markDirty .payloadTable { s with aid := { s.aid with table := t } })))

/-- READ_FLAGS and CLEAR_FLAGS are performed and answered at once while the solver is IDLE, join the flag wait list
while a solve is in flight, and are answered BUSY when four wait; CLEAR_FLAGS naming a mark outside the five is
refused (R19, R20). The fields as received in the BUSY and BAD_FIELD answers are log 25's choice. -/
def Obligations.FlagRequestsActOrWait : Prop :=
  (∀ (s : State) (c : Instr) (r : Request) (d : Payload) (q : FlagRequest), FlagForm c r d q → Offered s .sl r d →
    (s.solver.solve = .idle →
      exec c s = .next
        (answer .sl r .ok (flagEcho s.solver q)
          { s with solver := { s.solver with sticky := stickyFrom s.solver.sticky q } })) ∧
    (s.solver.solve ≠ .idle → s.solver.waiting.length < 4 →
      exec c s = .next
        (setPort .sl { portOf s .sl with rx := (portOf s .sl).rx.tail, reserved := (portOf s .sl).reserved + 1 }
          { s with solver := { s.solver with waiting := s.solver.waiting ++ [⟨true, q⟩] } })) ∧
    (s.solver.solve ≠ .idle → 4 ≤ s.solver.waiting.length →
      exec c s = .next (answer .sl r .busy (.received d) s))) ∧
  ∀ (s : State) (named : CauseMarks), Offered s .sl .clearFlags (.clearFlags named true) →
    exec (.clearFlags .sl) s = .next (answer .sl .clearFlags .badField (.received (.clearFlags named true)) s)

/-! ## What every step keeps -/

/-- Every step keeps the sizes of the numbered tables (R41, R153) and every stamp slot's consistency: an EMPTY slot's
hidden overflow is clear (R171). -/
def Obligations.StepKeepsShapesAndStamps : Prop :=
  ∀ s t : State, ShapeInv s → StampInv s → step s = .next t → ShapeInv t ∧ StampInv t

/-- Every step keeps the queues within what they may hold and one place reserved for every answer owed (R19, R50, R180,
R181, R182, R183); the mark that an answer is owed is the model's own (log 22). -/
def Obligations.StepKeepsQueues : Prop :=
  ∀ s t : State, QueueInv s → step s = .next t → QueueInv t

/-- Every step keeps the scales of both output sets in 0 to 1000, their target rpm in 700 to 2100 and their next rpm 0
or in that range (R71, R72, R118, R164). -/
def Obligations.StepKeepsOutputInRange : Prop :=
  ∀ s t : State, OutputInv s → step s = .next t → OutputInv t

/-- Every step keeps the ladder in the order of R104 with at most one record for each source, only the first leading,
and its target and next rpm as R118 forms them, in the pending set too (R102 to R106, R118). The invariant says too
that every block holds its reset values during LOADING, which is the model's choice (log 8). -/
def Obligations.StepKeepsLadder : Prop :=
  ∀ s t : State, LadderInv s → step s = .next t → LadderInv t

/-- Every step keeps the ring whole: cursors against the put index, exactly the held positions holding a notice, and
each position the newest notice of at most one item (R150, R153, R155). -/
def Obligations.StepKeepsRing : Prop :=
  ∀ s t : State, RingInv s → step s = .next t → RingInv t

/-- Every step keeps this: while the pose is WITHHELD or LOST the cycle phase is IDLE and the ladder holds no DIG_BOOST
record, seen between completions (R88). -/
def Obligations.StepKeepsBoostWithdrawn : Prop :=
  ∀ s t : State, BoostInv s → step s = .next t → BoostInv t

/-- The state after power-on reset meets every invariant; what most blocks hold in it is the model's choice (log 8), its
blank image too (log 7). -/
def Obligations.ResetMeetsInvariants : Prop :=
  ShapeInv State.reset ∧ StampInv State.reset ∧ QueueInv State.reset ∧ OutputInv State.reset ∧ LadderInv State.reset ∧
    RingInv State.reset ∧ BoostInv State.reset

/-- A zone entry or grade plane of origin SITE is changed only by a request taken on the service link, or by a reset
and its image load (R45). -/
def Obligations.SiteEntriesYieldToServiceOnly : Prop :=
  ∀ (c : Instr) (s t : State), exec c s = .next t → resets c s = false →
    (∀ n, isSite (zoneAt s n) = true → ¬serviceEdit (editsZone n) c s → zoneAt t n = zoneAt s n) ∧
    (planeIsSite s.table.plane = true → ¬serviceEdit editsPlane c s → t.table.plane = s.table.plane)

/-- Between two resets no accumulator decreases (R133), and a HELD stamp slot's record is changed by no event until a
STAMP_READ empties it (R173). -/
def Obligations.TotalsAndHeldStampsEndure : Prop :=
  ∀ (c : Instr) (s t : State), exec c s = .next t → resets c s = false →
    (∀ a : Accum, (accGet s.duty.values a).value ≤ (accGet t.duty.values a).value) ∧
    ((∀ l, c ≠ .stampRead l) → ∀ (k : StampKind) (r : StampRecord),
      slotRecord s.stamps k = some r → slotRecord t.stamps k = some r)

end
end

