-- ==== Sys2Proof/Laws/State.lean ====
section
/-! SUPPORT. What each shared operation leaves alone: one lemma for each field of the state, so that no later proof unfolds
a record update. -/

namespace Sys2Proof.Laws

open Sys2Proof.Machine

/-! A port replaced -/

@[simp] theorem setPort_part (l : Link) (p : Port) (s : State) : (setPort l p s).part = s.part := by cases l <;> rfl
@[simp] theorem setPort_examined (l : Link) (p : Port) (s : State) : (setPort l p s).examined = s.examined := by cases l <;> rfl
@[simp] theorem setPort_intake (l : Link) (p : Port) (s : State) : (setPort l p s).intake = s.intake := by cases l <;> rfl
@[simp] theorem setPort_solver (l : Link) (p : Port) (s : State) : (setPort l p s).solver = s.solver := by cases l <;> rfl
@[simp] theorem setPort_table (l : Link) (p : Port) (s : State) : (setPort l p s).table = s.table := by cases l <;> rfl
@[simp] theorem setPort_evaluator (l : Link) (p : Port) (s : State) : (setPort l p s).evaluator = s.evaluator := by cases l <;> rfl
@[simp] theorem setPort_aid (l : Link) (p : Port) (s : State) : (setPort l p s).aid = s.aid := by cases l <;> rfl
@[simp] theorem setPort_ladder (l : Link) (p : Port) (s : State) : (setPort l p s).ladder = s.ladder := by cases l <;> rfl
@[simp] theorem setPort_duty (l : Link) (p : Port) (s : State) : (setPort l p s).duty = s.duty := by cases l <;> rfl
@[simp] theorem setPort_items (l : Link) (p : Port) (s : State) : (setPort l p s).items = s.items := by cases l <;> rfl
@[simp] theorem setPort_ring (l : Link) (p : Port) (s : State) : (setPort l p s).ring = s.ring := by cases l <;> rfl
@[simp] theorem setPort_output (l : Link) (p : Port) (s : State) : (setPort l p s).output = s.output := by cases l <;> rfl
@[simp] theorem setPort_stamps (l : Link) (p : Port) (s : State) : (setPort l p s).stamps = s.stamps := by cases l <;> rfl
@[simp] theorem setPort_store (l : Link) (p : Port) (s : State) : (setPort l p s).store = s.store := by cases l <;> rfl
@[simp] theorem setPort_pending (l : Link) (p : Port) (s : State) : (setPort l p s).pending = s.pending := by cases l <;> rfl

/-! Taking and answering a request -/

@[simp] theorem takeHead_part (l : Link) (s : State) : (takeHead l s).part = s.part := by simp [takeHead]
@[simp] theorem takeHead_examined (l : Link) (s : State) : (takeHead l s).examined = s.examined := by simp [takeHead]
@[simp] theorem takeHead_intake (l : Link) (s : State) : (takeHead l s).intake = s.intake := by simp [takeHead]
@[simp] theorem takeHead_solver (l : Link) (s : State) : (takeHead l s).solver = s.solver := by simp [takeHead]
@[simp] theorem takeHead_table (l : Link) (s : State) : (takeHead l s).table = s.table := by simp [takeHead]
@[simp] theorem takeHead_evaluator (l : Link) (s : State) : (takeHead l s).evaluator = s.evaluator := by simp [takeHead]
@[simp] theorem takeHead_aid (l : Link) (s : State) : (takeHead l s).aid = s.aid := by simp [takeHead]
@[simp] theorem takeHead_ladder (l : Link) (s : State) : (takeHead l s).ladder = s.ladder := by simp [takeHead]
@[simp] theorem takeHead_duty (l : Link) (s : State) : (takeHead l s).duty = s.duty := by simp [takeHead]
@[simp] theorem takeHead_items (l : Link) (s : State) : (takeHead l s).items = s.items := by simp [takeHead]
@[simp] theorem takeHead_ring (l : Link) (s : State) : (takeHead l s).ring = s.ring := by simp [takeHead]
@[simp] theorem takeHead_output (l : Link) (s : State) : (takeHead l s).output = s.output := by simp [takeHead]
@[simp] theorem takeHead_stamps (l : Link) (s : State) : (takeHead l s).stamps = s.stamps := by simp [takeHead]
@[simp] theorem takeHead_store (l : Link) (s : State) : (takeHead l s).store = s.store := by simp [takeHead]
@[simp] theorem takeHead_pending (l : Link) (s : State) : (takeHead l s).pending = s.pending := by simp [takeHead]
@[simp] theorem dropHead_part (l : Link) (s : State) : (dropHead l s).part = s.part := by simp [dropHead]
@[simp] theorem dropHead_examined (l : Link) (s : State) : (dropHead l s).examined = s.examined := by simp [dropHead]
@[simp] theorem dropHead_intake (l : Link) (s : State) : (dropHead l s).intake = s.intake := by simp [dropHead]
@[simp] theorem dropHead_solver (l : Link) (s : State) : (dropHead l s).solver = s.solver := by simp [dropHead]
@[simp] theorem dropHead_table (l : Link) (s : State) : (dropHead l s).table = s.table := by simp [dropHead]
@[simp] theorem dropHead_evaluator (l : Link) (s : State) : (dropHead l s).evaluator = s.evaluator := by simp [dropHead]
@[simp] theorem dropHead_aid (l : Link) (s : State) : (dropHead l s).aid = s.aid := by simp [dropHead]
@[simp] theorem dropHead_ladder (l : Link) (s : State) : (dropHead l s).ladder = s.ladder := by simp [dropHead]
@[simp] theorem dropHead_duty (l : Link) (s : State) : (dropHead l s).duty = s.duty := by simp [dropHead]
@[simp] theorem dropHead_items (l : Link) (s : State) : (dropHead l s).items = s.items := by simp [dropHead]
@[simp] theorem dropHead_ring (l : Link) (s : State) : (dropHead l s).ring = s.ring := by simp [dropHead]
@[simp] theorem dropHead_output (l : Link) (s : State) : (dropHead l s).output = s.output := by simp [dropHead]
@[simp] theorem dropHead_stamps (l : Link) (s : State) : (dropHead l s).stamps = s.stamps := by simp [dropHead]
@[simp] theorem dropHead_store (l : Link) (s : State) : (dropHead l s).store = s.store := by simp [dropHead]
@[simp] theorem dropHead_pending (l : Link) (s : State) : (dropHead l s).pending = s.pending := by simp [dropHead]
@[simp] theorem clearOverrun_part (l : Link) (s : State) : (clearOverrun l s).part = s.part := by simp [clearOverrun]
@[simp] theorem clearOverrun_examined (l : Link) (s : State) : (clearOverrun l s).examined = s.examined := by simp [clearOverrun]
@[simp] theorem clearOverrun_intake (l : Link) (s : State) : (clearOverrun l s).intake = s.intake := by simp [clearOverrun]
@[simp] theorem clearOverrun_solver (l : Link) (s : State) : (clearOverrun l s).solver = s.solver := by simp [clearOverrun]
@[simp] theorem clearOverrun_table (l : Link) (s : State) : (clearOverrun l s).table = s.table := by simp [clearOverrun]
@[simp] theorem clearOverrun_evaluator (l : Link) (s : State) : (clearOverrun l s).evaluator = s.evaluator := by simp [clearOverrun]
@[simp] theorem clearOverrun_aid (l : Link) (s : State) : (clearOverrun l s).aid = s.aid := by simp [clearOverrun]
@[simp] theorem clearOverrun_ladder (l : Link) (s : State) : (clearOverrun l s).ladder = s.ladder := by simp [clearOverrun]
@[simp] theorem clearOverrun_duty (l : Link) (s : State) : (clearOverrun l s).duty = s.duty := by simp [clearOverrun]
@[simp] theorem clearOverrun_items (l : Link) (s : State) : (clearOverrun l s).items = s.items := by simp [clearOverrun]
@[simp] theorem clearOverrun_ring (l : Link) (s : State) : (clearOverrun l s).ring = s.ring := by simp [clearOverrun]
@[simp] theorem clearOverrun_output (l : Link) (s : State) : (clearOverrun l s).output = s.output := by simp [clearOverrun]
@[simp] theorem clearOverrun_stamps (l : Link) (s : State) : (clearOverrun l s).stamps = s.stamps := by simp [clearOverrun]
@[simp] theorem clearOverrun_store (l : Link) (s : State) : (clearOverrun l s).store = s.store := by simp [clearOverrun]
@[simp] theorem clearOverrun_pending (l : Link) (s : State) : (clearOverrun l s).pending = s.pending := by simp [clearOverrun]
@[simp] theorem sendPeriodic_part (l : Link) (b : TxBody) (s : State) : (sendPeriodic l b s).part = s.part := by simp [sendPeriodic]
@[simp] theorem sendPeriodic_examined (l : Link) (b : TxBody) (s : State) : (sendPeriodic l b s).examined = s.examined := by simp [sendPeriodic]
@[simp] theorem sendPeriodic_intake (l : Link) (b : TxBody) (s : State) : (sendPeriodic l b s).intake = s.intake := by simp [sendPeriodic]
@[simp] theorem sendPeriodic_solver (l : Link) (b : TxBody) (s : State) : (sendPeriodic l b s).solver = s.solver := by simp [sendPeriodic]
@[simp] theorem sendPeriodic_table (l : Link) (b : TxBody) (s : State) : (sendPeriodic l b s).table = s.table := by simp [sendPeriodic]
@[simp] theorem sendPeriodic_evaluator (l : Link) (b : TxBody) (s : State) : (sendPeriodic l b s).evaluator = s.evaluator := by simp [sendPeriodic]
@[simp] theorem sendPeriodic_aid (l : Link) (b : TxBody) (s : State) : (sendPeriodic l b s).aid = s.aid := by simp [sendPeriodic]
@[simp] theorem sendPeriodic_ladder (l : Link) (b : TxBody) (s : State) : (sendPeriodic l b s).ladder = s.ladder := by simp [sendPeriodic]
@[simp] theorem sendPeriodic_duty (l : Link) (b : TxBody) (s : State) : (sendPeriodic l b s).duty = s.duty := by simp [sendPeriodic]
@[simp] theorem sendPeriodic_items (l : Link) (b : TxBody) (s : State) : (sendPeriodic l b s).items = s.items := by simp [sendPeriodic]
@[simp] theorem sendPeriodic_ring (l : Link) (b : TxBody) (s : State) : (sendPeriodic l b s).ring = s.ring := by simp [sendPeriodic]
@[simp] theorem sendPeriodic_output (l : Link) (b : TxBody) (s : State) : (sendPeriodic l b s).output = s.output := by simp [sendPeriodic]
@[simp] theorem sendPeriodic_stamps (l : Link) (b : TxBody) (s : State) : (sendPeriodic l b s).stamps = s.stamps := by simp [sendPeriodic]
@[simp] theorem sendPeriodic_store (l : Link) (b : TxBody) (s : State) : (sendPeriodic l b s).store = s.store := by simp [sendPeriodic]
@[simp] theorem sendPeriodic_pending (l : Link) (b : TxBody) (s : State) : (sendPeriodic l b s).pending = s.pending := by simp [sendPeriodic]
@[simp] theorem sendNotice_part (l : Link) (b : TxBody) (s : State) : (sendNotice l b s).part = s.part := by simp [sendNotice]
@[simp] theorem sendNotice_examined (l : Link) (b : TxBody) (s : State) : (sendNotice l b s).examined = s.examined := by simp [sendNotice]
@[simp] theorem sendNotice_intake (l : Link) (b : TxBody) (s : State) : (sendNotice l b s).intake = s.intake := by simp [sendNotice]
@[simp] theorem sendNotice_solver (l : Link) (b : TxBody) (s : State) : (sendNotice l b s).solver = s.solver := by simp [sendNotice]
@[simp] theorem sendNotice_table (l : Link) (b : TxBody) (s : State) : (sendNotice l b s).table = s.table := by simp [sendNotice]
@[simp] theorem sendNotice_evaluator (l : Link) (b : TxBody) (s : State) : (sendNotice l b s).evaluator = s.evaluator := by simp [sendNotice]
@[simp] theorem sendNotice_aid (l : Link) (b : TxBody) (s : State) : (sendNotice l b s).aid = s.aid := by simp [sendNotice]
@[simp] theorem sendNotice_ladder (l : Link) (b : TxBody) (s : State) : (sendNotice l b s).ladder = s.ladder := by simp [sendNotice]
@[simp] theorem sendNotice_duty (l : Link) (b : TxBody) (s : State) : (sendNotice l b s).duty = s.duty := by simp [sendNotice]
@[simp] theorem sendNotice_items (l : Link) (b : TxBody) (s : State) : (sendNotice l b s).items = s.items := by simp [sendNotice]
@[simp] theorem sendNotice_ring (l : Link) (b : TxBody) (s : State) : (sendNotice l b s).ring = s.ring := by simp [sendNotice]
@[simp] theorem sendNotice_output (l : Link) (b : TxBody) (s : State) : (sendNotice l b s).output = s.output := by simp [sendNotice]
@[simp] theorem sendNotice_stamps (l : Link) (b : TxBody) (s : State) : (sendNotice l b s).stamps = s.stamps := by simp [sendNotice]
@[simp] theorem sendNotice_store (l : Link) (b : TxBody) (s : State) : (sendNotice l b s).store = s.store := by simp [sendNotice]
@[simp] theorem sendNotice_pending (l : Link) (b : TxBody) (s : State) : (sendNotice l b s).pending = s.pending := by simp [sendNotice]
@[simp] theorem sendAnswer_part (l : Link) (o : Bool) (b : TxBody) (s : State) : (sendAnswer l o b s).part = s.part := by simp [sendAnswer]
@[simp] theorem sendAnswer_examined (l : Link) (o : Bool) (b : TxBody) (s : State) : (sendAnswer l o b s).examined = s.examined := by simp [sendAnswer]
@[simp] theorem sendAnswer_intake (l : Link) (o : Bool) (b : TxBody) (s : State) : (sendAnswer l o b s).intake = s.intake := by simp [sendAnswer]
@[simp] theorem sendAnswer_solver (l : Link) (o : Bool) (b : TxBody) (s : State) : (sendAnswer l o b s).solver = s.solver := by simp [sendAnswer]
@[simp] theorem sendAnswer_table (l : Link) (o : Bool) (b : TxBody) (s : State) : (sendAnswer l o b s).table = s.table := by simp [sendAnswer]
@[simp] theorem sendAnswer_evaluator (l : Link) (o : Bool) (b : TxBody) (s : State) : (sendAnswer l o b s).evaluator = s.evaluator := by simp [sendAnswer]
@[simp] theorem sendAnswer_aid (l : Link) (o : Bool) (b : TxBody) (s : State) : (sendAnswer l o b s).aid = s.aid := by simp [sendAnswer]
@[simp] theorem sendAnswer_ladder (l : Link) (o : Bool) (b : TxBody) (s : State) : (sendAnswer l o b s).ladder = s.ladder := by simp [sendAnswer]
@[simp] theorem sendAnswer_duty (l : Link) (o : Bool) (b : TxBody) (s : State) : (sendAnswer l o b s).duty = s.duty := by simp [sendAnswer]
@[simp] theorem sendAnswer_items (l : Link) (o : Bool) (b : TxBody) (s : State) : (sendAnswer l o b s).items = s.items := by simp [sendAnswer]
@[simp] theorem sendAnswer_ring (l : Link) (o : Bool) (b : TxBody) (s : State) : (sendAnswer l o b s).ring = s.ring := by simp [sendAnswer]
@[simp] theorem sendAnswer_output (l : Link) (o : Bool) (b : TxBody) (s : State) : (sendAnswer l o b s).output = s.output := by simp [sendAnswer]
@[simp] theorem sendAnswer_stamps (l : Link) (o : Bool) (b : TxBody) (s : State) : (sendAnswer l o b s).stamps = s.stamps := by simp [sendAnswer]
@[simp] theorem sendAnswer_store (l : Link) (o : Bool) (b : TxBody) (s : State) : (sendAnswer l o b s).store = s.store := by simp [sendAnswer]
@[simp] theorem sendAnswer_pending (l : Link) (o : Bool) (b : TxBody) (s : State) : (sendAnswer l o b s).pending = s.pending := by simp [sendAnswer]
@[simp] theorem reply_part (l : Link) (r : Request) (x : Result) (e : Echo) (s : State) : (reply l r x e s).part = s.part := by simp [reply]
@[simp] theorem reply_examined (l : Link) (r : Request) (x : Result) (e : Echo) (s : State) : (reply l r x e s).examined = s.examined := by simp [reply]
@[simp] theorem reply_intake (l : Link) (r : Request) (x : Result) (e : Echo) (s : State) : (reply l r x e s).intake = s.intake := by simp [reply]
@[simp] theorem reply_solver (l : Link) (r : Request) (x : Result) (e : Echo) (s : State) : (reply l r x e s).solver = s.solver := by simp [reply]
@[simp] theorem reply_table (l : Link) (r : Request) (x : Result) (e : Echo) (s : State) : (reply l r x e s).table = s.table := by simp [reply]
@[simp] theorem reply_evaluator (l : Link) (r : Request) (x : Result) (e : Echo) (s : State) : (reply l r x e s).evaluator = s.evaluator := by simp [reply]
@[simp] theorem reply_aid (l : Link) (r : Request) (x : Result) (e : Echo) (s : State) : (reply l r x e s).aid = s.aid := by simp [reply]
@[simp] theorem reply_ladder (l : Link) (r : Request) (x : Result) (e : Echo) (s : State) : (reply l r x e s).ladder = s.ladder := by simp [reply]
@[simp] theorem reply_duty (l : Link) (r : Request) (x : Result) (e : Echo) (s : State) : (reply l r x e s).duty = s.duty := by simp [reply]
@[simp] theorem reply_items (l : Link) (r : Request) (x : Result) (e : Echo) (s : State) : (reply l r x e s).items = s.items := by simp [reply]
@[simp] theorem reply_ring (l : Link) (r : Request) (x : Result) (e : Echo) (s : State) : (reply l r x e s).ring = s.ring := by simp [reply]
@[simp] theorem reply_output (l : Link) (r : Request) (x : Result) (e : Echo) (s : State) : (reply l r x e s).output = s.output := by simp [reply]
@[simp] theorem reply_stamps (l : Link) (r : Request) (x : Result) (e : Echo) (s : State) : (reply l r x e s).stamps = s.stamps := by simp [reply]
@[simp] theorem reply_store (l : Link) (r : Request) (x : Result) (e : Echo) (s : State) : (reply l r x e s).store = s.store := by simp [reply]
@[simp] theorem reply_pending (l : Link) (r : Request) (x : Result) (e : Echo) (s : State) : (reply l r x e s).pending = s.pending := by simp [reply]
@[simp] theorem replyLater_part (l : Link) (o : Bool) (r : Request) (x : Result) (e : Echo) (s : State) : (replyLater l o r x e s).part = s.part := by simp [replyLater]
@[simp] theorem replyLater_examined (l : Link) (o : Bool) (r : Request) (x : Result) (e : Echo) (s : State) : (replyLater l o r x e s).examined = s.examined := by simp [replyLater]
@[simp] theorem replyLater_intake (l : Link) (o : Bool) (r : Request) (x : Result) (e : Echo) (s : State) : (replyLater l o r x e s).intake = s.intake := by simp [replyLater]
@[simp] theorem replyLater_solver (l : Link) (o : Bool) (r : Request) (x : Result) (e : Echo) (s : State) : (replyLater l o r x e s).solver = s.solver := by simp [replyLater]
@[simp] theorem replyLater_table (l : Link) (o : Bool) (r : Request) (x : Result) (e : Echo) (s : State) : (replyLater l o r x e s).table = s.table := by simp [replyLater]
@[simp] theorem replyLater_evaluator (l : Link) (o : Bool) (r : Request) (x : Result) (e : Echo) (s : State) : (replyLater l o r x e s).evaluator = s.evaluator := by simp [replyLater]
@[simp] theorem replyLater_aid (l : Link) (o : Bool) (r : Request) (x : Result) (e : Echo) (s : State) : (replyLater l o r x e s).aid = s.aid := by simp [replyLater]
@[simp] theorem replyLater_ladder (l : Link) (o : Bool) (r : Request) (x : Result) (e : Echo) (s : State) : (replyLater l o r x e s).ladder = s.ladder := by simp [replyLater]
@[simp] theorem replyLater_duty (l : Link) (o : Bool) (r : Request) (x : Result) (e : Echo) (s : State) : (replyLater l o r x e s).duty = s.duty := by simp [replyLater]
@[simp] theorem replyLater_items (l : Link) (o : Bool) (r : Request) (x : Result) (e : Echo) (s : State) : (replyLater l o r x e s).items = s.items := by simp [replyLater]
@[simp] theorem replyLater_ring (l : Link) (o : Bool) (r : Request) (x : Result) (e : Echo) (s : State) : (replyLater l o r x e s).ring = s.ring := by simp [replyLater]
@[simp] theorem replyLater_output (l : Link) (o : Bool) (r : Request) (x : Result) (e : Echo) (s : State) : (replyLater l o r x e s).output = s.output := by simp [replyLater]
@[simp] theorem replyLater_stamps (l : Link) (o : Bool) (r : Request) (x : Result) (e : Echo) (s : State) : (replyLater l o r x e s).stamps = s.stamps := by simp [replyLater]
@[simp] theorem replyLater_store (l : Link) (o : Bool) (r : Request) (x : Result) (e : Echo) (s : State) : (replyLater l o r x e s).store = s.store := by simp [replyLater]
@[simp] theorem replyLater_pending (l : Link) (o : Bool) (r : Request) (x : Result) (e : Echo) (s : State) : (replyLater l o r x e s).pending = s.pending := by simp [replyLater]
@[simp] theorem answer_part (l : Link) (r : Request) (x : Result) (e : Echo) (s : State) : (answer l r x e s).part = s.part := by simp [answer]
@[simp] theorem answer_examined (l : Link) (r : Request) (x : Result) (e : Echo) (s : State) : (answer l r x e s).examined = s.examined := by simp [answer]
@[simp] theorem answer_intake (l : Link) (r : Request) (x : Result) (e : Echo) (s : State) : (answer l r x e s).intake = s.intake := by simp [answer]
@[simp] theorem answer_solver (l : Link) (r : Request) (x : Result) (e : Echo) (s : State) : (answer l r x e s).solver = s.solver := by simp [answer]
@[simp] theorem answer_table (l : Link) (r : Request) (x : Result) (e : Echo) (s : State) : (answer l r x e s).table = s.table := by simp [answer]
@[simp] theorem answer_evaluator (l : Link) (r : Request) (x : Result) (e : Echo) (s : State) : (answer l r x e s).evaluator = s.evaluator := by simp [answer]
@[simp] theorem answer_aid (l : Link) (r : Request) (x : Result) (e : Echo) (s : State) : (answer l r x e s).aid = s.aid := by simp [answer]
@[simp] theorem answer_ladder (l : Link) (r : Request) (x : Result) (e : Echo) (s : State) : (answer l r x e s).ladder = s.ladder := by simp [answer]
@[simp] theorem answer_duty (l : Link) (r : Request) (x : Result) (e : Echo) (s : State) : (answer l r x e s).duty = s.duty := by simp [answer]
@[simp] theorem answer_items (l : Link) (r : Request) (x : Result) (e : Echo) (s : State) : (answer l r x e s).items = s.items := by simp [answer]
@[simp] theorem answer_ring (l : Link) (r : Request) (x : Result) (e : Echo) (s : State) : (answer l r x e s).ring = s.ring := by simp [answer]
@[simp] theorem answer_output (l : Link) (r : Request) (x : Result) (e : Echo) (s : State) : (answer l r x e s).output = s.output := by simp [answer]
@[simp] theorem answer_stamps (l : Link) (r : Request) (x : Result) (e : Echo) (s : State) : (answer l r x e s).stamps = s.stamps := by simp [answer]
@[simp] theorem answer_store (l : Link) (r : Request) (x : Result) (e : Echo) (s : State) : (answer l r x e s).store = s.store := by simp [answer]
@[simp] theorem answer_pending (l : Link) (r : Request) (x : Result) (e : Echo) (s : State) : (answer l r x e s).pending = s.pending := by simp [answer]
@[simp] theorem replyItem_part (l : Link) (r : Request) (x : Result) (k : Nat) (s : State) : (replyItem l r x k s).part = s.part := by simp [replyItem]
@[simp] theorem replyItem_examined (l : Link) (r : Request) (x : Result) (k : Nat) (s : State) : (replyItem l r x k s).examined = s.examined := by simp [replyItem]
@[simp] theorem replyItem_intake (l : Link) (r : Request) (x : Result) (k : Nat) (s : State) : (replyItem l r x k s).intake = s.intake := by simp [replyItem]
@[simp] theorem replyItem_solver (l : Link) (r : Request) (x : Result) (k : Nat) (s : State) : (replyItem l r x k s).solver = s.solver := by simp [replyItem]
@[simp] theorem replyItem_table (l : Link) (r : Request) (x : Result) (k : Nat) (s : State) : (replyItem l r x k s).table = s.table := by simp [replyItem]
@[simp] theorem replyItem_evaluator (l : Link) (r : Request) (x : Result) (k : Nat) (s : State) : (replyItem l r x k s).evaluator = s.evaluator := by simp [replyItem]
@[simp] theorem replyItem_aid (l : Link) (r : Request) (x : Result) (k : Nat) (s : State) : (replyItem l r x k s).aid = s.aid := by simp [replyItem]
@[simp] theorem replyItem_ladder (l : Link) (r : Request) (x : Result) (k : Nat) (s : State) : (replyItem l r x k s).ladder = s.ladder := by simp [replyItem]
@[simp] theorem replyItem_duty (l : Link) (r : Request) (x : Result) (k : Nat) (s : State) : (replyItem l r x k s).duty = s.duty := by simp [replyItem]
@[simp] theorem replyItem_items (l : Link) (r : Request) (x : Result) (k : Nat) (s : State) : (replyItem l r x k s).items = s.items := by simp [replyItem]
@[simp] theorem replyItem_ring (l : Link) (r : Request) (x : Result) (k : Nat) (s : State) : (replyItem l r x k s).ring = s.ring := by simp [replyItem]
@[simp] theorem replyItem_output (l : Link) (r : Request) (x : Result) (k : Nat) (s : State) : (replyItem l r x k s).output = s.output := by simp [replyItem]
@[simp] theorem replyItem_stamps (l : Link) (r : Request) (x : Result) (k : Nat) (s : State) : (replyItem l r x k s).stamps = s.stamps := by simp [replyItem]
@[simp] theorem replyItem_store (l : Link) (r : Request) (x : Result) (k : Nat) (s : State) : (replyItem l r x k s).store = s.store := by simp [replyItem]
@[simp] theorem replyItem_pending (l : Link) (r : Request) (x : Result) (k : Nat) (s : State) : (replyItem l r x k s).pending = s.pending := by simp [replyItem]

/-! The store -/

@[simp] theorem raiseStoreFault_part (o : FaultOccasion) (r : RecordId) (s : State) : (raiseStoreFault o r s).part = s.part := rfl
@[simp] theorem raiseStoreFault_examined (o : FaultOccasion) (r : RecordId) (s : State) : (raiseStoreFault o r s).examined = s.examined := rfl
@[simp] theorem raiseStoreFault_ports (o : FaultOccasion) (r : RecordId) (s : State) : (raiseStoreFault o r s).ports = s.ports := rfl
@[simp] theorem raiseStoreFault_intake (o : FaultOccasion) (r : RecordId) (s : State) : (raiseStoreFault o r s).intake = s.intake := rfl
@[simp] theorem raiseStoreFault_solver (o : FaultOccasion) (r : RecordId) (s : State) : (raiseStoreFault o r s).solver = s.solver := rfl
@[simp] theorem raiseStoreFault_table (o : FaultOccasion) (r : RecordId) (s : State) : (raiseStoreFault o r s).table = s.table := rfl
@[simp] theorem raiseStoreFault_evaluator (o : FaultOccasion) (r : RecordId) (s : State) : (raiseStoreFault o r s).evaluator = s.evaluator := rfl
@[simp] theorem raiseStoreFault_aid (o : FaultOccasion) (r : RecordId) (s : State) : (raiseStoreFault o r s).aid = s.aid := rfl
@[simp] theorem raiseStoreFault_ladder (o : FaultOccasion) (r : RecordId) (s : State) : (raiseStoreFault o r s).ladder = s.ladder := rfl
@[simp] theorem raiseStoreFault_duty (o : FaultOccasion) (r : RecordId) (s : State) : (raiseStoreFault o r s).duty = s.duty := rfl
@[simp] theorem raiseStoreFault_items (o : FaultOccasion) (r : RecordId) (s : State) : (raiseStoreFault o r s).items = s.items := rfl
@[simp] theorem raiseStoreFault_ring (o : FaultOccasion) (r : RecordId) (s : State) : (raiseStoreFault o r s).ring = s.ring := rfl
@[simp] theorem raiseStoreFault_output (o : FaultOccasion) (r : RecordId) (s : State) : (raiseStoreFault o r s).output = s.output := rfl
@[simp] theorem raiseStoreFault_store (o : FaultOccasion) (r : RecordId) (s : State) : (raiseStoreFault o r s).store = s.store := rfl
@[simp] theorem raiseStoreFault_pending (o : FaultOccasion) (r : RecordId) (s : State) : (raiseStoreFault o r s).pending = s.pending := rfl
@[simp] theorem startSave_part (s : State) : (startSave s).part = s.part := rfl
@[simp] theorem startSave_examined (s : State) : (startSave s).examined = s.examined := rfl
@[simp] theorem startSave_ports (s : State) : (startSave s).ports = s.ports := rfl
@[simp] theorem startSave_intake (s : State) : (startSave s).intake = s.intake := rfl
@[simp] theorem startSave_solver (s : State) : (startSave s).solver = s.solver := rfl
@[simp] theorem startSave_table (s : State) : (startSave s).table = s.table := rfl
@[simp] theorem startSave_evaluator (s : State) : (startSave s).evaluator = s.evaluator := rfl
@[simp] theorem startSave_aid (s : State) : (startSave s).aid = s.aid := rfl
@[simp] theorem startSave_ladder (s : State) : (startSave s).ladder = s.ladder := rfl
@[simp] theorem startSave_duty (s : State) : (startSave s).duty = s.duty := rfl
@[simp] theorem startSave_items (s : State) : (startSave s).items = s.items := rfl
@[simp] theorem startSave_ring (s : State) : (startSave s).ring = s.ring := rfl
@[simp] theorem startSave_output (s : State) : (startSave s).output = s.output := rfl
@[simp] theorem startSave_stamps (s : State) : (startSave s).stamps = s.stamps := rfl
@[simp] theorem startSave_pending (s : State) : (startSave s).pending = s.pending := rfl
@[simp] theorem triggerSave_part (s : State) : (triggerSave s).part = s.part := by unfold triggerSave; split; exacts [rfl, by split <;> rfl]
@[simp] theorem triggerSave_examined (s : State) : (triggerSave s).examined = s.examined := by unfold triggerSave; split; exacts [rfl, by split <;> rfl]
@[simp] theorem triggerSave_ports (s : State) : (triggerSave s).ports = s.ports := by unfold triggerSave; split; exacts [rfl, by split <;> rfl]
@[simp] theorem triggerSave_intake (s : State) : (triggerSave s).intake = s.intake := by unfold triggerSave; split; exacts [rfl, by split <;> rfl]
@[simp] theorem triggerSave_solver (s : State) : (triggerSave s).solver = s.solver := by unfold triggerSave; split; exacts [rfl, by split <;> rfl]
@[simp] theorem triggerSave_table (s : State) : (triggerSave s).table = s.table := by unfold triggerSave; split; exacts [rfl, by split <;> rfl]
@[simp] theorem triggerSave_evaluator (s : State) : (triggerSave s).evaluator = s.evaluator := by unfold triggerSave; split; exacts [rfl, by split <;> rfl]
@[simp] theorem triggerSave_aid (s : State) : (triggerSave s).aid = s.aid := by unfold triggerSave; split; exacts [rfl, by split <;> rfl]
@[simp] theorem triggerSave_ladder (s : State) : (triggerSave s).ladder = s.ladder := by unfold triggerSave; split; exacts [rfl, by split <;> rfl]
@[simp] theorem triggerSave_duty (s : State) : (triggerSave s).duty = s.duty := by unfold triggerSave; split; exacts [rfl, by split <;> rfl]
@[simp] theorem triggerSave_items (s : State) : (triggerSave s).items = s.items := by unfold triggerSave; split; exacts [rfl, by split <;> rfl]
@[simp] theorem triggerSave_ring (s : State) : (triggerSave s).ring = s.ring := by unfold triggerSave; split; exacts [rfl, by split <;> rfl]
@[simp] theorem triggerSave_output (s : State) : (triggerSave s).output = s.output := by unfold triggerSave; split; exacts [rfl, by split <;> rfl]
@[simp] theorem triggerSave_stamps (s : State) : (triggerSave s).stamps = s.stamps := by unfold triggerSave; split; exacts [rfl, by split <;> rfl]
@[simp] theorem triggerSave_pending (s : State) : (triggerSave s).pending = s.pending := by unfold triggerSave; split; exacts [rfl, by split <;> rfl]
@[simp] theorem markOnly_part (r : RecordId) (s : State) : (markOnly r s).part = s.part := rfl
@[simp] theorem markOnly_examined (r : RecordId) (s : State) : (markOnly r s).examined = s.examined := rfl
@[simp] theorem markOnly_ports (r : RecordId) (s : State) : (markOnly r s).ports = s.ports := rfl
@[simp] theorem markOnly_intake (r : RecordId) (s : State) : (markOnly r s).intake = s.intake := rfl
@[simp] theorem markOnly_solver (r : RecordId) (s : State) : (markOnly r s).solver = s.solver := rfl
@[simp] theorem markOnly_table (r : RecordId) (s : State) : (markOnly r s).table = s.table := rfl
@[simp] theorem markOnly_evaluator (r : RecordId) (s : State) : (markOnly r s).evaluator = s.evaluator := rfl
@[simp] theorem markOnly_aid (r : RecordId) (s : State) : (markOnly r s).aid = s.aid := rfl
@[simp] theorem markOnly_ladder (r : RecordId) (s : State) : (markOnly r s).ladder = s.ladder := rfl
@[simp] theorem markOnly_duty (r : RecordId) (s : State) : (markOnly r s).duty = s.duty := rfl
@[simp] theorem markOnly_items (r : RecordId) (s : State) : (markOnly r s).items = s.items := rfl
@[simp] theorem markOnly_ring (r : RecordId) (s : State) : (markOnly r s).ring = s.ring := rfl
@[simp] theorem markOnly_output (r : RecordId) (s : State) : (markOnly r s).output = s.output := rfl
@[simp] theorem markOnly_stamps (r : RecordId) (s : State) : (markOnly r s).stamps = s.stamps := rfl
@[simp] theorem markOnly_pending (r : RecordId) (s : State) : (markOnly r s).pending = s.pending := rfl
@[simp] theorem markDirty_part (r : RecordId) (s : State) : (markDirty r s).part = s.part := by simp [markDirty]
@[simp] theorem markDirty_examined (r : RecordId) (s : State) : (markDirty r s).examined = s.examined := by simp [markDirty]
@[simp] theorem markDirty_ports (r : RecordId) (s : State) : (markDirty r s).ports = s.ports := by simp [markDirty]
@[simp] theorem markDirty_intake (r : RecordId) (s : State) : (markDirty r s).intake = s.intake := by simp [markDirty]
@[simp] theorem markDirty_solver (r : RecordId) (s : State) : (markDirty r s).solver = s.solver := by simp [markDirty]
@[simp] theorem markDirty_table (r : RecordId) (s : State) : (markDirty r s).table = s.table := by simp [markDirty]
@[simp] theorem markDirty_evaluator (r : RecordId) (s : State) : (markDirty r s).evaluator = s.evaluator := by simp [markDirty]
@[simp] theorem markDirty_aid (r : RecordId) (s : State) : (markDirty r s).aid = s.aid := by simp [markDirty]
@[simp] theorem markDirty_ladder (r : RecordId) (s : State) : (markDirty r s).ladder = s.ladder := by simp [markDirty]
@[simp] theorem markDirty_duty (r : RecordId) (s : State) : (markDirty r s).duty = s.duty := by simp [markDirty]
@[simp] theorem markDirty_items (r : RecordId) (s : State) : (markDirty r s).items = s.items := by simp [markDirty]
@[simp] theorem markDirty_ring (r : RecordId) (s : State) : (markDirty r s).ring = s.ring := by simp [markDirty]
@[simp] theorem markDirty_output (r : RecordId) (s : State) : (markDirty r s).output = s.output := by simp [markDirty]
@[simp] theorem markDirty_stamps (r : RecordId) (s : State) : (markDirty r s).stamps = s.stamps := by simp [markDirty]
@[simp] theorem markDirty_pending (r : RecordId) (s : State) : (markDirty r s).pending = s.pending := by simp [markDirty]

/-! The time base -/

@[simp] theorem elapse_part (n : Nat) (s : State) : (elapse n s).part = s.part := rfl
@[simp] theorem elapse_examined (n : Nat) (s : State) : (elapse n s).examined = s.examined := rfl
@[simp] theorem elapse_ports (n : Nat) (s : State) : (elapse n s).ports = s.ports := rfl
@[simp] theorem elapse_solver (n : Nat) (s : State) : (elapse n s).solver = s.solver := rfl
@[simp] theorem elapse_table (n : Nat) (s : State) : (elapse n s).table = s.table := rfl
@[simp] theorem elapse_evaluator (n : Nat) (s : State) : (elapse n s).evaluator = s.evaluator := rfl
@[simp] theorem elapse_aid (n : Nat) (s : State) : (elapse n s).aid = s.aid := rfl
@[simp] theorem elapse_duty (n : Nat) (s : State) : (elapse n s).duty = s.duty := rfl
@[simp] theorem elapse_items (n : Nat) (s : State) : (elapse n s).items = s.items := rfl
@[simp] theorem elapse_ring (n : Nat) (s : State) : (elapse n s).ring = s.ring := rfl
@[simp] theorem elapse_stamps (n : Nat) (s : State) : (elapse n s).stamps = s.stamps := rfl
@[simp] theorem elapse_pending (n : Nat) (s : State) : (elapse n s).pending = s.pending := rfl

/-! The ladder -/

@[simp] theorem writeTarget_part (s : State) : (writeTarget s).part = s.part := rfl
@[simp] theorem writeTarget_examined (s : State) : (writeTarget s).examined = s.examined := rfl
@[simp] theorem writeTarget_ports (s : State) : (writeTarget s).ports = s.ports := rfl
@[simp] theorem writeTarget_intake (s : State) : (writeTarget s).intake = s.intake := rfl
@[simp] theorem writeTarget_solver (s : State) : (writeTarget s).solver = s.solver := rfl
@[simp] theorem writeTarget_table (s : State) : (writeTarget s).table = s.table := rfl
@[simp] theorem writeTarget_evaluator (s : State) : (writeTarget s).evaluator = s.evaluator := rfl
@[simp] theorem writeTarget_aid (s : State) : (writeTarget s).aid = s.aid := rfl
@[simp] theorem writeTarget_ladder (s : State) : (writeTarget s).ladder = s.ladder := rfl
@[simp] theorem writeTarget_duty (s : State) : (writeTarget s).duty = s.duty := rfl
@[simp] theorem writeTarget_items (s : State) : (writeTarget s).items = s.items := rfl
@[simp] theorem writeTarget_ring (s : State) : (writeTarget s).ring = s.ring := rfl
@[simp] theorem writeTarget_stamps (s : State) : (writeTarget s).stamps = s.stamps := rfl
@[simp] theorem writeTarget_store (s : State) : (writeTarget s).store = s.store := rfl
@[simp] theorem writeTarget_pending (s : State) : (writeTarget s).pending = s.pending := rfl
@[simp] theorem retarget_part (L : Ladder) (s : State) : (retarget L s).part = s.part := rfl
@[simp] theorem retarget_examined (L : Ladder) (s : State) : (retarget L s).examined = s.examined := rfl
@[simp] theorem retarget_ports (L : Ladder) (s : State) : (retarget L s).ports = s.ports := rfl
@[simp] theorem retarget_intake (L : Ladder) (s : State) : (retarget L s).intake = s.intake := rfl
@[simp] theorem retarget_solver (L : Ladder) (s : State) : (retarget L s).solver = s.solver := rfl
@[simp] theorem retarget_table (L : Ladder) (s : State) : (retarget L s).table = s.table := rfl
@[simp] theorem retarget_evaluator (L : Ladder) (s : State) : (retarget L s).evaluator = s.evaluator := rfl
@[simp] theorem retarget_aid (L : Ladder) (s : State) : (retarget L s).aid = s.aid := rfl
@[simp] theorem retarget_duty (L : Ladder) (s : State) : (retarget L s).duty = s.duty := rfl
@[simp] theorem retarget_items (L : Ladder) (s : State) : (retarget L s).items = s.items := rfl
@[simp] theorem retarget_ring (L : Ladder) (s : State) : (retarget L s).ring = s.ring := rfl
@[simp] theorem retarget_stamps (L : Ladder) (s : State) : (retarget L s).stamps = s.stamps := rfl
@[simp] theorem retarget_store (L : Ladder) (s : State) : (retarget L s).store = s.store := rfl
@[simp] theorem retarget_pending (L : Ladder) (s : State) : (retarget L s).pending = s.pending := rfl
@[simp] theorem sendDropped_part (s : State) (d : Drop) : (sendDropped s d).part = s.part := by unfold sendDropped; split <;> simp
@[simp] theorem sendDropped_examined (s : State) (d : Drop) : (sendDropped s d).examined = s.examined := by unfold sendDropped; split <;> simp
@[simp] theorem sendDropped_intake (s : State) (d : Drop) : (sendDropped s d).intake = s.intake := by unfold sendDropped; split <;> simp
@[simp] theorem sendDropped_solver (s : State) (d : Drop) : (sendDropped s d).solver = s.solver := by unfold sendDropped; split <;> simp
@[simp] theorem sendDropped_table (s : State) (d : Drop) : (sendDropped s d).table = s.table := by unfold sendDropped; split <;> simp
@[simp] theorem sendDropped_evaluator (s : State) (d : Drop) : (sendDropped s d).evaluator = s.evaluator := by unfold sendDropped; split <;> simp
@[simp] theorem sendDropped_aid (s : State) (d : Drop) : (sendDropped s d).aid = s.aid := by unfold sendDropped; split <;> simp
@[simp] theorem sendDropped_ladder (s : State) (d : Drop) : (sendDropped s d).ladder = s.ladder := by unfold sendDropped; split <;> simp
@[simp] theorem sendDropped_duty (s : State) (d : Drop) : (sendDropped s d).duty = s.duty := by unfold sendDropped; split <;> simp
@[simp] theorem sendDropped_items (s : State) (d : Drop) : (sendDropped s d).items = s.items := by unfold sendDropped; split <;> simp
@[simp] theorem sendDropped_ring (s : State) (d : Drop) : (sendDropped s d).ring = s.ring := by unfold sendDropped; split <;> simp
@[simp] theorem sendDropped_output (s : State) (d : Drop) : (sendDropped s d).output = s.output := by unfold sendDropped; split <;> simp
@[simp] theorem sendDropped_stamps (s : State) (d : Drop) : (sendDropped s d).stamps = s.stamps := by unfold sendDropped; split <;> simp
@[simp] theorem sendDropped_store (s : State) (d : Drop) : (sendDropped s d).store = s.store := by unfold sendDropped; split <;> simp
@[simp] theorem sendDropped_pending (s : State) (d : Drop) : (sendDropped s d).pending = s.pending := by unfold sendDropped; split <;> simp
@[simp] theorem serviceRequest_part (b : Bool) (s : State) : (serviceRequest b s).part = s.part := by unfold serviceRequest; split <;> rfl
@[simp] theorem serviceRequest_examined (b : Bool) (s : State) : (serviceRequest b s).examined = s.examined := by unfold serviceRequest; split <;> rfl
@[simp] theorem serviceRequest_ports (b : Bool) (s : State) : (serviceRequest b s).ports = s.ports := by unfold serviceRequest; split <;> rfl
@[simp] theorem serviceRequest_intake (b : Bool) (s : State) : (serviceRequest b s).intake = s.intake := by unfold serviceRequest; split <;> rfl
@[simp] theorem serviceRequest_solver (b : Bool) (s : State) : (serviceRequest b s).solver = s.solver := by unfold serviceRequest; split <;> rfl
@[simp] theorem serviceRequest_table (b : Bool) (s : State) : (serviceRequest b s).table = s.table := by unfold serviceRequest; split <;> rfl
@[simp] theorem serviceRequest_evaluator (b : Bool) (s : State) : (serviceRequest b s).evaluator = s.evaluator := by unfold serviceRequest; split <;> rfl
@[simp] theorem serviceRequest_aid (b : Bool) (s : State) : (serviceRequest b s).aid = s.aid := by unfold serviceRequest; split <;> rfl
@[simp] theorem serviceRequest_duty (b : Bool) (s : State) : (serviceRequest b s).duty = s.duty := by unfold serviceRequest; split <;> rfl
@[simp] theorem serviceRequest_items (b : Bool) (s : State) : (serviceRequest b s).items = s.items := by unfold serviceRequest; split <;> rfl
@[simp] theorem serviceRequest_ring (b : Bool) (s : State) : (serviceRequest b s).ring = s.ring := by unfold serviceRequest; split <;> rfl
@[simp] theorem serviceRequest_stamps (b : Bool) (s : State) : (serviceRequest b s).stamps = s.stamps := by unfold serviceRequest; split <;> rfl
@[simp] theorem serviceRequest_store (b : Bool) (s : State) : (serviceRequest b s).store = s.store := by unfold serviceRequest; split <;> rfl
@[simp] theorem serviceRequest_pending (b : Bool) (s : State) : (serviceRequest b s).pending = s.pending := by unfold serviceRequest; split <;> rfl
@[simp] theorem syncService_part (s : State) : (syncService s).part = s.part := by simp [syncService]
@[simp] theorem syncService_examined (s : State) : (syncService s).examined = s.examined := by simp [syncService]
@[simp] theorem syncService_ports (s : State) : (syncService s).ports = s.ports := by simp [syncService]
@[simp] theorem syncService_intake (s : State) : (syncService s).intake = s.intake := by simp [syncService]
@[simp] theorem syncService_solver (s : State) : (syncService s).solver = s.solver := by simp [syncService]
@[simp] theorem syncService_table (s : State) : (syncService s).table = s.table := by simp [syncService]
@[simp] theorem syncService_evaluator (s : State) : (syncService s).evaluator = s.evaluator := by simp [syncService]
@[simp] theorem syncService_aid (s : State) : (syncService s).aid = s.aid := by simp [syncService]
@[simp] theorem syncService_duty (s : State) : (syncService s).duty = s.duty := by simp [syncService]
@[simp] theorem syncService_items (s : State) : (syncService s).items = s.items := by simp [syncService]
@[simp] theorem syncService_ring (s : State) : (syncService s).ring = s.ring := by simp [syncService]
@[simp] theorem syncService_stamps (s : State) : (syncService s).stamps = s.stamps := by simp [syncService]
@[simp] theorem syncService_store (s : State) : (syncService s).store = s.store := by simp [syncService]
@[simp] theorem syncService_pending (s : State) : (syncService s).pending = s.pending := by simp [syncService]

/-! The evaluator and the envelope table -/

@[simp] theorem writeScales_part (s : State) : (writeScales s).part = s.part := rfl
@[simp] theorem writeScales_examined (s : State) : (writeScales s).examined = s.examined := rfl
@[simp] theorem writeScales_ports (s : State) : (writeScales s).ports = s.ports := rfl
@[simp] theorem writeScales_intake (s : State) : (writeScales s).intake = s.intake := rfl
@[simp] theorem writeScales_solver (s : State) : (writeScales s).solver = s.solver := rfl
@[simp] theorem writeScales_table (s : State) : (writeScales s).table = s.table := rfl
@[simp] theorem writeScales_evaluator (s : State) : (writeScales s).evaluator = s.evaluator := rfl
@[simp] theorem writeScales_aid (s : State) : (writeScales s).aid = s.aid := rfl
@[simp] theorem writeScales_ladder (s : State) : (writeScales s).ladder = s.ladder := rfl
@[simp] theorem writeScales_duty (s : State) : (writeScales s).duty = s.duty := rfl
@[simp] theorem writeScales_items (s : State) : (writeScales s).items = s.items := rfl
@[simp] theorem writeScales_ring (s : State) : (writeScales s).ring = s.ring := rfl
@[simp] theorem writeScales_stamps (s : State) : (writeScales s).stamps = s.stamps := rfl
@[simp] theorem writeScales_store (s : State) : (writeScales s).store = s.store := rfl
@[simp] theorem writeScales_pending (s : State) : (writeScales s).pending = s.pending := rfl
@[simp] theorem rewriteRecord_part (r : EvalRecord) (s : State) : (rewriteRecord r s).part = s.part := rfl
@[simp] theorem rewriteRecord_examined (r : EvalRecord) (s : State) : (rewriteRecord r s).examined = s.examined := rfl
@[simp] theorem rewriteRecord_ports (r : EvalRecord) (s : State) : (rewriteRecord r s).ports = s.ports := rfl
@[simp] theorem rewriteRecord_intake (r : EvalRecord) (s : State) : (rewriteRecord r s).intake = s.intake := rfl
@[simp] theorem rewriteRecord_solver (r : EvalRecord) (s : State) : (rewriteRecord r s).solver = s.solver := rfl
@[simp] theorem rewriteRecord_table (r : EvalRecord) (s : State) : (rewriteRecord r s).table = s.table := rfl
@[simp] theorem rewriteRecord_aid (r : EvalRecord) (s : State) : (rewriteRecord r s).aid = s.aid := rfl
@[simp] theorem rewriteRecord_ladder (r : EvalRecord) (s : State) : (rewriteRecord r s).ladder = s.ladder := rfl
@[simp] theorem rewriteRecord_duty (r : EvalRecord) (s : State) : (rewriteRecord r s).duty = s.duty := rfl
@[simp] theorem rewriteRecord_items (r : EvalRecord) (s : State) : (rewriteRecord r s).items = s.items := rfl
@[simp] theorem rewriteRecord_ring (r : EvalRecord) (s : State) : (rewriteRecord r s).ring = s.ring := rfl
@[simp] theorem rewriteRecord_stamps (r : EvalRecord) (s : State) : (rewriteRecord r s).stamps = s.stamps := rfl
@[simp] theorem rewriteRecord_store (r : EvalRecord) (s : State) : (rewriteRecord r s).store = s.store := rfl
@[simp] theorem rewriteRecord_pending (r : EvalRecord) (s : State) : (rewriteRecord r s).pending = s.pending := rfl
@[simp] theorem editRewrite_part (s : State) : (editRewrite s).part = s.part := by unfold editRewrite; dsimp only; split <;> simp
@[simp] theorem editRewrite_examined (s : State) : (editRewrite s).examined = s.examined := by unfold editRewrite; dsimp only; split <;> simp
@[simp] theorem editRewrite_ports (s : State) : (editRewrite s).ports = s.ports := by unfold editRewrite; dsimp only; split <;> simp
@[simp] theorem editRewrite_intake (s : State) : (editRewrite s).intake = s.intake := by unfold editRewrite; dsimp only; split <;> simp
@[simp] theorem editRewrite_solver (s : State) : (editRewrite s).solver = s.solver := by unfold editRewrite; dsimp only; split <;> simp
@[simp] theorem editRewrite_table (s : State) : (editRewrite s).table = s.table := by unfold editRewrite; dsimp only; split <;> simp
@[simp] theorem editRewrite_aid (s : State) : (editRewrite s).aid = s.aid := by unfold editRewrite; dsimp only; split <;> simp
@[simp] theorem editRewrite_ladder (s : State) : (editRewrite s).ladder = s.ladder := by unfold editRewrite; dsimp only; split <;> simp
@[simp] theorem editRewrite_duty (s : State) : (editRewrite s).duty = s.duty := by unfold editRewrite; dsimp only; split <;> simp
@[simp] theorem editRewrite_items (s : State) : (editRewrite s).items = s.items := by unfold editRewrite; dsimp only; split <;> simp
@[simp] theorem editRewrite_ring (s : State) : (editRewrite s).ring = s.ring := by unfold editRewrite; dsimp only; split <;> simp
@[simp] theorem editRewrite_stamps (s : State) : (editRewrite s).stamps = s.stamps := by unfold editRewrite; dsimp only; split <;> simp
@[simp] theorem editRewrite_store (s : State) : (editRewrite s).store = s.store := by unfold editRewrite; dsimp only; split <;> simp
@[simp] theorem editRewrite_pending (s : State) : (editRewrite s).pending = s.pending := by unfold editRewrite; dsimp only; split <;> simp
@[simp] theorem clearEntryMarks_part (n : Nat) (s : State) : (clearEntryMarks n s).part = s.part := rfl
@[simp] theorem clearEntryMarks_examined (n : Nat) (s : State) : (clearEntryMarks n s).examined = s.examined := rfl
@[simp] theorem clearEntryMarks_ports (n : Nat) (s : State) : (clearEntryMarks n s).ports = s.ports := rfl
@[simp] theorem clearEntryMarks_intake (n : Nat) (s : State) : (clearEntryMarks n s).intake = s.intake := rfl
@[simp] theorem clearEntryMarks_solver (n : Nat) (s : State) : (clearEntryMarks n s).solver = s.solver := rfl
@[simp] theorem clearEntryMarks_table (n : Nat) (s : State) : (clearEntryMarks n s).table = s.table := rfl
@[simp] theorem clearEntryMarks_aid (n : Nat) (s : State) : (clearEntryMarks n s).aid = s.aid := rfl
@[simp] theorem clearEntryMarks_ladder (n : Nat) (s : State) : (clearEntryMarks n s).ladder = s.ladder := rfl
@[simp] theorem clearEntryMarks_duty (n : Nat) (s : State) : (clearEntryMarks n s).duty = s.duty := rfl
@[simp] theorem clearEntryMarks_items (n : Nat) (s : State) : (clearEntryMarks n s).items = s.items := rfl
@[simp] theorem clearEntryMarks_ring (n : Nat) (s : State) : (clearEntryMarks n s).ring = s.ring := rfl
@[simp] theorem clearEntryMarks_output (n : Nat) (s : State) : (clearEntryMarks n s).output = s.output := rfl
@[simp] theorem clearEntryMarks_stamps (n : Nat) (s : State) : (clearEntryMarks n s).stamps = s.stamps := rfl
@[simp] theorem clearEntryMarks_store (n : Nat) (s : State) : (clearEntryMarks n s).store = s.store := rfl
@[simp] theorem clearEntryMarks_pending (n : Nat) (s : State) : (clearEntryMarks n s).pending = s.pending := rfl
@[simp] theorem putZone_part (n : Nat) (z : Zone) (s : State) : (putZone n z s).part = s.part := rfl
@[simp] theorem putZone_examined (n : Nat) (z : Zone) (s : State) : (putZone n z s).examined = s.examined := rfl
@[simp] theorem putZone_ports (n : Nat) (z : Zone) (s : State) : (putZone n z s).ports = s.ports := rfl
@[simp] theorem putZone_intake (n : Nat) (z : Zone) (s : State) : (putZone n z s).intake = s.intake := rfl
@[simp] theorem putZone_solver (n : Nat) (z : Zone) (s : State) : (putZone n z s).solver = s.solver := rfl
@[simp] theorem putZone_evaluator (n : Nat) (z : Zone) (s : State) : (putZone n z s).evaluator = s.evaluator := rfl
@[simp] theorem putZone_aid (n : Nat) (z : Zone) (s : State) : (putZone n z s).aid = s.aid := rfl
@[simp] theorem putZone_ladder (n : Nat) (z : Zone) (s : State) : (putZone n z s).ladder = s.ladder := rfl
@[simp] theorem putZone_duty (n : Nat) (z : Zone) (s : State) : (putZone n z s).duty = s.duty := rfl
@[simp] theorem putZone_items (n : Nat) (z : Zone) (s : State) : (putZone n z s).items = s.items := rfl
@[simp] theorem putZone_ring (n : Nat) (z : Zone) (s : State) : (putZone n z s).ring = s.ring := rfl
@[simp] theorem putZone_output (n : Nat) (z : Zone) (s : State) : (putZone n z s).output = s.output := rfl
@[simp] theorem putZone_stamps (n : Nat) (z : Zone) (s : State) : (putZone n z s).stamps = s.stamps := rfl
@[simp] theorem putZone_store (n : Nat) (z : Zone) (s : State) : (putZone n z s).store = s.store := rfl
@[simp] theorem putZone_pending (n : Nat) (z : Zone) (s : State) : (putZone n z s).pending = s.pending := rfl
@[simp] theorem putPlane_part (p : GradePlane) (s : State) : (putPlane p s).part = s.part := rfl
@[simp] theorem putPlane_examined (p : GradePlane) (s : State) : (putPlane p s).examined = s.examined := rfl
@[simp] theorem putPlane_ports (p : GradePlane) (s : State) : (putPlane p s).ports = s.ports := rfl
@[simp] theorem putPlane_intake (p : GradePlane) (s : State) : (putPlane p s).intake = s.intake := rfl
@[simp] theorem putPlane_solver (p : GradePlane) (s : State) : (putPlane p s).solver = s.solver := rfl
@[simp] theorem putPlane_evaluator (p : GradePlane) (s : State) : (putPlane p s).evaluator = s.evaluator := rfl
@[simp] theorem putPlane_aid (p : GradePlane) (s : State) : (putPlane p s).aid = s.aid := rfl
@[simp] theorem putPlane_ladder (p : GradePlane) (s : State) : (putPlane p s).ladder = s.ladder := rfl
@[simp] theorem putPlane_duty (p : GradePlane) (s : State) : (putPlane p s).duty = s.duty := rfl
@[simp] theorem putPlane_items (p : GradePlane) (s : State) : (putPlane p s).items = s.items := rfl
@[simp] theorem putPlane_ring (p : GradePlane) (s : State) : (putPlane p s).ring = s.ring := rfl
@[simp] theorem putPlane_output (p : GradePlane) (s : State) : (putPlane p s).output = s.output := rfl
@[simp] theorem putPlane_stamps (p : GradePlane) (s : State) : (putPlane p s).stamps = s.stamps := rfl
@[simp] theorem putPlane_store (p : GradePlane) (s : State) : (putPlane p s).store = s.store := rfl
@[simp] theorem putPlane_pending (p : GradePlane) (s : State) : (putPlane p s).pending = s.pending := rfl
@[simp] theorem acceptZone_part (n : Nat) (a : ZoneAction) (z : Zone) (s : State) : (acceptZone n a z s).part = s.part := by unfold acceptZone; dsimp only; split <;> split <;> simp
@[simp] theorem acceptZone_examined (n : Nat) (a : ZoneAction) (z : Zone) (s : State) : (acceptZone n a z s).examined = s.examined := by unfold acceptZone; dsimp only; split <;> split <;> simp
@[simp] theorem acceptZone_ports (n : Nat) (a : ZoneAction) (z : Zone) (s : State) : (acceptZone n a z s).ports = s.ports := by unfold acceptZone; dsimp only; split <;> split <;> simp
@[simp] theorem acceptZone_intake (n : Nat) (a : ZoneAction) (z : Zone) (s : State) : (acceptZone n a z s).intake = s.intake := by unfold acceptZone; dsimp only; split <;> split <;> simp
@[simp] theorem acceptZone_solver (n : Nat) (a : ZoneAction) (z : Zone) (s : State) : (acceptZone n a z s).solver = s.solver := by unfold acceptZone; dsimp only; split <;> split <;> simp
@[simp] theorem acceptZone_aid (n : Nat) (a : ZoneAction) (z : Zone) (s : State) : (acceptZone n a z s).aid = s.aid := by unfold acceptZone; dsimp only; split <;> split <;> simp
@[simp] theorem acceptZone_ladder (n : Nat) (a : ZoneAction) (z : Zone) (s : State) : (acceptZone n a z s).ladder = s.ladder := by unfold acceptZone; dsimp only; split <;> split <;> simp
@[simp] theorem acceptZone_duty (n : Nat) (a : ZoneAction) (z : Zone) (s : State) : (acceptZone n a z s).duty = s.duty := by unfold acceptZone; dsimp only; split <;> split <;> simp
@[simp] theorem acceptZone_items (n : Nat) (a : ZoneAction) (z : Zone) (s : State) : (acceptZone n a z s).items = s.items := by unfold acceptZone; dsimp only; split <;> split <;> simp
@[simp] theorem acceptZone_ring (n : Nat) (a : ZoneAction) (z : Zone) (s : State) : (acceptZone n a z s).ring = s.ring := by unfold acceptZone; dsimp only; split <;> split <;> simp
@[simp] theorem acceptZone_stamps (n : Nat) (a : ZoneAction) (z : Zone) (s : State) : (acceptZone n a z s).stamps = s.stamps := by unfold acceptZone; dsimp only; split <;> split <;> simp
@[simp] theorem acceptZone_pending (n : Nat) (a : ZoneAction) (z : Zone) (s : State) : (acceptZone n a z s).pending = s.pending := by unfold acceptZone; dsimp only; split <;> split <;> simp
@[simp] theorem acceptPlane_part (p : GradePlane) (s : State) : (acceptPlane p s).part = s.part := by unfold acceptPlane; dsimp only; split <;> simp
@[simp] theorem acceptPlane_examined (p : GradePlane) (s : State) : (acceptPlane p s).examined = s.examined := by unfold acceptPlane; dsimp only; split <;> simp
@[simp] theorem acceptPlane_ports (p : GradePlane) (s : State) : (acceptPlane p s).ports = s.ports := by unfold acceptPlane; dsimp only; split <;> simp
@[simp] theorem acceptPlane_intake (p : GradePlane) (s : State) : (acceptPlane p s).intake = s.intake := by unfold acceptPlane; dsimp only; split <;> simp
@[simp] theorem acceptPlane_solver (p : GradePlane) (s : State) : (acceptPlane p s).solver = s.solver := by unfold acceptPlane; dsimp only; split <;> simp
@[simp] theorem acceptPlane_aid (p : GradePlane) (s : State) : (acceptPlane p s).aid = s.aid := by unfold acceptPlane; dsimp only; split <;> simp
@[simp] theorem acceptPlane_ladder (p : GradePlane) (s : State) : (acceptPlane p s).ladder = s.ladder := by unfold acceptPlane; dsimp only; split <;> simp
@[simp] theorem acceptPlane_duty (p : GradePlane) (s : State) : (acceptPlane p s).duty = s.duty := by unfold acceptPlane; dsimp only; split <;> simp
@[simp] theorem acceptPlane_items (p : GradePlane) (s : State) : (acceptPlane p s).items = s.items := by unfold acceptPlane; dsimp only; split <;> simp
@[simp] theorem acceptPlane_ring (p : GradePlane) (s : State) : (acceptPlane p s).ring = s.ring := by unfold acceptPlane; dsimp only; split <;> simp
@[simp] theorem acceptPlane_stamps (p : GradePlane) (s : State) : (acceptPlane p s).stamps = s.stamps := by unfold acceptPlane; dsimp only; split <;> simp
@[simp] theorem acceptPlane_pending (p : GradePlane) (s : State) : (acceptPlane p s).pending = s.pending := by unfold acceptPlane; dsimp only; split <;> simp
@[simp] theorem applyGeometry_part (g : Geometry) (s : State) : (applyGeometry g s).part = s.part := by simp [applyGeometry]
@[simp] theorem applyGeometry_examined (g : Geometry) (s : State) : (applyGeometry g s).examined = s.examined := by simp [applyGeometry]
@[simp] theorem applyGeometry_ports (g : Geometry) (s : State) : (applyGeometry g s).ports = s.ports := by simp [applyGeometry]
@[simp] theorem applyGeometry_intake (g : Geometry) (s : State) : (applyGeometry g s).intake = s.intake := by simp [applyGeometry]
@[simp] theorem applyGeometry_table (g : Geometry) (s : State) : (applyGeometry g s).table = s.table := by simp [applyGeometry]
@[simp] theorem applyGeometry_aid (g : Geometry) (s : State) : (applyGeometry g s).aid = s.aid := by simp [applyGeometry]
@[simp] theorem applyGeometry_ladder (g : Geometry) (s : State) : (applyGeometry g s).ladder = s.ladder := by simp [applyGeometry]
@[simp] theorem applyGeometry_duty (g : Geometry) (s : State) : (applyGeometry g s).duty = s.duty := by simp [applyGeometry]
@[simp] theorem applyGeometry_items (g : Geometry) (s : State) : (applyGeometry g s).items = s.items := by simp [applyGeometry]
@[simp] theorem applyGeometry_ring (g : Geometry) (s : State) : (applyGeometry g s).ring = s.ring := by simp [applyGeometry]
@[simp] theorem applyGeometry_stamps (g : Geometry) (s : State) : (applyGeometry g s).stamps = s.stamps := by simp [applyGeometry]
@[simp] theorem applyGeometry_pending (g : Geometry) (s : State) : (applyGeometry g s).pending = s.pending := by simp [applyGeometry]
@[simp] theorem evaluatorSampleLoss_part (s : State) : (evaluatorSampleLoss s).part = s.part := rfl
@[simp] theorem evaluatorSampleLoss_examined (s : State) : (evaluatorSampleLoss s).examined = s.examined := rfl
@[simp] theorem evaluatorSampleLoss_ports (s : State) : (evaluatorSampleLoss s).ports = s.ports := rfl
@[simp] theorem evaluatorSampleLoss_intake (s : State) : (evaluatorSampleLoss s).intake = s.intake := rfl
@[simp] theorem evaluatorSampleLoss_solver (s : State) : (evaluatorSampleLoss s).solver = s.solver := rfl
@[simp] theorem evaluatorSampleLoss_table (s : State) : (evaluatorSampleLoss s).table = s.table := rfl
@[simp] theorem evaluatorSampleLoss_aid (s : State) : (evaluatorSampleLoss s).aid = s.aid := rfl
@[simp] theorem evaluatorSampleLoss_ladder (s : State) : (evaluatorSampleLoss s).ladder = s.ladder := rfl
@[simp] theorem evaluatorSampleLoss_duty (s : State) : (evaluatorSampleLoss s).duty = s.duty := rfl
@[simp] theorem evaluatorSampleLoss_items (s : State) : (evaluatorSampleLoss s).items = s.items := rfl
@[simp] theorem evaluatorSampleLoss_ring (s : State) : (evaluatorSampleLoss s).ring = s.ring := rfl
@[simp] theorem evaluatorSampleLoss_stamps (s : State) : (evaluatorSampleLoss s).stamps = s.stamps := rfl
@[simp] theorem evaluatorSampleLoss_store (s : State) : (evaluatorSampleLoss s).store = s.store := rfl
@[simp] theorem evaluatorSampleLoss_pending (s : State) : (evaluatorSampleLoss s).pending = s.pending := rfl

/-! The solver and the intake -/

@[simp] theorem clearSticky_part (m : CauseMarks) (s : State) : (clearSticky m s).part = s.part := rfl
@[simp] theorem clearSticky_examined (m : CauseMarks) (s : State) : (clearSticky m s).examined = s.examined := rfl
@[simp] theorem clearSticky_ports (m : CauseMarks) (s : State) : (clearSticky m s).ports = s.ports := rfl
@[simp] theorem clearSticky_intake (m : CauseMarks) (s : State) : (clearSticky m s).intake = s.intake := rfl
@[simp] theorem clearSticky_table (m : CauseMarks) (s : State) : (clearSticky m s).table = s.table := rfl
@[simp] theorem clearSticky_evaluator (m : CauseMarks) (s : State) : (clearSticky m s).evaluator = s.evaluator := rfl
@[simp] theorem clearSticky_aid (m : CauseMarks) (s : State) : (clearSticky m s).aid = s.aid := rfl
@[simp] theorem clearSticky_ladder (m : CauseMarks) (s : State) : (clearSticky m s).ladder = s.ladder := rfl
@[simp] theorem clearSticky_duty (m : CauseMarks) (s : State) : (clearSticky m s).duty = s.duty := rfl
@[simp] theorem clearSticky_items (m : CauseMarks) (s : State) : (clearSticky m s).items = s.items := rfl
@[simp] theorem clearSticky_ring (m : CauseMarks) (s : State) : (clearSticky m s).ring = s.ring := rfl
@[simp] theorem clearSticky_output (m : CauseMarks) (s : State) : (clearSticky m s).output = s.output := rfl
@[simp] theorem clearSticky_stamps (m : CauseMarks) (s : State) : (clearSticky m s).stamps = s.stamps := rfl
@[simp] theorem clearSticky_store (m : CauseMarks) (s : State) : (clearSticky m s).store = s.store := rfl
@[simp] theorem clearSticky_pending (m : CauseMarks) (s : State) : (clearSticky m s).pending = s.pending := rfl
@[simp] theorem performFlag_part (l : Link) (s : State) (w : WaitingFlag) : (performFlag l s w).part = s.part := by unfold performFlag; split <;> simp
@[simp] theorem performFlag_examined (l : Link) (s : State) (w : WaitingFlag) : (performFlag l s w).examined = s.examined := by unfold performFlag; split <;> simp
@[simp] theorem performFlag_intake (l : Link) (s : State) (w : WaitingFlag) : (performFlag l s w).intake = s.intake := by unfold performFlag; split <;> simp
@[simp] theorem performFlag_table (l : Link) (s : State) (w : WaitingFlag) : (performFlag l s w).table = s.table := by unfold performFlag; split <;> simp
@[simp] theorem performFlag_evaluator (l : Link) (s : State) (w : WaitingFlag) : (performFlag l s w).evaluator = s.evaluator := by unfold performFlag; split <;> simp
@[simp] theorem performFlag_aid (l : Link) (s : State) (w : WaitingFlag) : (performFlag l s w).aid = s.aid := by unfold performFlag; split <;> simp
@[simp] theorem performFlag_ladder (l : Link) (s : State) (w : WaitingFlag) : (performFlag l s w).ladder = s.ladder := by unfold performFlag; split <;> simp
@[simp] theorem performFlag_duty (l : Link) (s : State) (w : WaitingFlag) : (performFlag l s w).duty = s.duty := by unfold performFlag; split <;> simp
@[simp] theorem performFlag_items (l : Link) (s : State) (w : WaitingFlag) : (performFlag l s w).items = s.items := by unfold performFlag; split <;> simp
@[simp] theorem performFlag_ring (l : Link) (s : State) (w : WaitingFlag) : (performFlag l s w).ring = s.ring := by unfold performFlag; split <;> simp
@[simp] theorem performFlag_output (l : Link) (s : State) (w : WaitingFlag) : (performFlag l s w).output = s.output := by unfold performFlag; split <;> simp
@[simp] theorem performFlag_stamps (l : Link) (s : State) (w : WaitingFlag) : (performFlag l s w).stamps = s.stamps := by unfold performFlag; split <;> simp
@[simp] theorem performFlag_store (l : Link) (s : State) (w : WaitingFlag) : (performFlag l s w).store = s.store := by unfold performFlag; split <;> simp
@[simp] theorem performFlag_pending (l : Link) (s : State) (w : WaitingFlag) : (performFlag l s w).pending = s.pending := by unfold performFlag; split <;> simp
@[simp] theorem beginSolve_part (x : Sample) (s : State) : (beginSolve x s).part = s.part := rfl
@[simp] theorem beginSolve_examined (x : Sample) (s : State) : (beginSolve x s).examined = s.examined := rfl
@[simp] theorem beginSolve_ports (x : Sample) (s : State) : (beginSolve x s).ports = s.ports := rfl
@[simp] theorem beginSolve_table (x : Sample) (s : State) : (beginSolve x s).table = s.table := rfl
@[simp] theorem beginSolve_evaluator (x : Sample) (s : State) : (beginSolve x s).evaluator = s.evaluator := rfl
@[simp] theorem beginSolve_aid (x : Sample) (s : State) : (beginSolve x s).aid = s.aid := rfl
@[simp] theorem beginSolve_ladder (x : Sample) (s : State) : (beginSolve x s).ladder = s.ladder := rfl
@[simp] theorem beginSolve_duty (x : Sample) (s : State) : (beginSolve x s).duty = s.duty := rfl
@[simp] theorem beginSolve_items (x : Sample) (s : State) : (beginSolve x s).items = s.items := rfl
@[simp] theorem beginSolve_ring (x : Sample) (s : State) : (beginSolve x s).ring = s.ring := rfl
@[simp] theorem beginSolve_output (x : Sample) (s : State) : (beginSolve x s).output = s.output := rfl
@[simp] theorem beginSolve_stamps (x : Sample) (s : State) : (beginSolve x s).stamps = s.stamps := rfl
@[simp] theorem beginSolve_store (x : Sample) (s : State) : (beginSolve x s).store = s.store := rfl
@[simp] theorem beginSolve_pending (x : Sample) (s : State) : (beginSolve x s).pending = s.pending := rfl
@[simp] theorem takeSample_part (x : Sample) (s : State) : (takeSample x s).part = s.part := by unfold takeSample; dsimp only; split <;> rfl
@[simp] theorem takeSample_examined (x : Sample) (s : State) : (takeSample x s).examined = s.examined := by unfold takeSample; dsimp only; split <;> rfl
@[simp] theorem takeSample_ports (x : Sample) (s : State) : (takeSample x s).ports = s.ports := by unfold takeSample; dsimp only; split <;> rfl
@[simp] theorem takeSample_table (x : Sample) (s : State) : (takeSample x s).table = s.table := by unfold takeSample; dsimp only; split <;> rfl
@[simp] theorem takeSample_evaluator (x : Sample) (s : State) : (takeSample x s).evaluator = s.evaluator := by unfold takeSample; dsimp only; split <;> rfl
@[simp] theorem takeSample_aid (x : Sample) (s : State) : (takeSample x s).aid = s.aid := by unfold takeSample; dsimp only; split <;> rfl
@[simp] theorem takeSample_ladder (x : Sample) (s : State) : (takeSample x s).ladder = s.ladder := by unfold takeSample; dsimp only; split <;> rfl
@[simp] theorem takeSample_duty (x : Sample) (s : State) : (takeSample x s).duty = s.duty := by unfold takeSample; dsimp only; split <;> rfl
@[simp] theorem takeSample_items (x : Sample) (s : State) : (takeSample x s).items = s.items := by unfold takeSample; dsimp only; split <;> rfl
@[simp] theorem takeSample_ring (x : Sample) (s : State) : (takeSample x s).ring = s.ring := by unfold takeSample; dsimp only; split <;> rfl
@[simp] theorem takeSample_output (x : Sample) (s : State) : (takeSample x s).output = s.output := by unfold takeSample; dsimp only; split <;> rfl
@[simp] theorem takeSample_stamps (x : Sample) (s : State) : (takeSample x s).stamps = s.stamps := by unfold takeSample; dsimp only; split <;> rfl
@[simp] theorem takeSample_store (x : Sample) (s : State) : (takeSample x s).store = s.store := by unfold takeSample; dsimp only; split <;> rfl
@[simp] theorem takeSample_pending (x : Sample) (s : State) : (takeSample x s).pending = s.pending := by unfold takeSample; dsimp only; split <;> rfl
@[simp] theorem intakeSample_part (x : Sample) (s : State) : (intakeSample x s).part = s.part := by unfold intakeSample; split <;> simp
@[simp] theorem intakeSample_examined (x : Sample) (s : State) : (intakeSample x s).examined = s.examined := by unfold intakeSample; split <;> simp
@[simp] theorem intakeSample_ports (x : Sample) (s : State) : (intakeSample x s).ports = s.ports := by unfold intakeSample; split <;> simp
@[simp] theorem intakeSample_table (x : Sample) (s : State) : (intakeSample x s).table = s.table := by unfold intakeSample; split <;> simp
@[simp] theorem intakeSample_evaluator (x : Sample) (s : State) : (intakeSample x s).evaluator = s.evaluator := by unfold intakeSample; split <;> simp
@[simp] theorem intakeSample_aid (x : Sample) (s : State) : (intakeSample x s).aid = s.aid := by unfold intakeSample; split <;> simp
@[simp] theorem intakeSample_ladder (x : Sample) (s : State) : (intakeSample x s).ladder = s.ladder := by unfold intakeSample; split <;> simp
@[simp] theorem intakeSample_duty (x : Sample) (s : State) : (intakeSample x s).duty = s.duty := by unfold intakeSample; split <;> simp
@[simp] theorem intakeSample_items (x : Sample) (s : State) : (intakeSample x s).items = s.items := by unfold intakeSample; split <;> simp
@[simp] theorem intakeSample_ring (x : Sample) (s : State) : (intakeSample x s).ring = s.ring := by unfold intakeSample; split <;> simp
@[simp] theorem intakeSample_output (x : Sample) (s : State) : (intakeSample x s).output = s.output := by unfold intakeSample; split <;> simp
@[simp] theorem intakeSample_stamps (x : Sample) (s : State) : (intakeSample x s).stamps = s.stamps := by unfold intakeSample; split <;> simp
@[simp] theorem intakeSample_store (x : Sample) (s : State) : (intakeSample x s).store = s.store := by unfold intakeSample; split <;> simp
@[simp] theorem intakeSample_pending (x : Sample) (s : State) : (intakeSample x s).pending = s.pending := by unfold intakeSample; split <;> simp
@[simp] theorem nextSolve_part (s : State) : (nextSolve s).part = s.part := by unfold nextSolve; split <;> rfl
@[simp] theorem nextSolve_examined (s : State) : (nextSolve s).examined = s.examined := by unfold nextSolve; split <;> rfl
@[simp] theorem nextSolve_ports (s : State) : (nextSolve s).ports = s.ports := by unfold nextSolve; split <;> rfl
@[simp] theorem nextSolve_table (s : State) : (nextSolve s).table = s.table := by unfold nextSolve; split <;> rfl
@[simp] theorem nextSolve_evaluator (s : State) : (nextSolve s).evaluator = s.evaluator := by unfold nextSolve; split <;> rfl
@[simp] theorem nextSolve_aid (s : State) : (nextSolve s).aid = s.aid := by unfold nextSolve; split <;> rfl
@[simp] theorem nextSolve_ladder (s : State) : (nextSolve s).ladder = s.ladder := by unfold nextSolve; split <;> rfl
@[simp] theorem nextSolve_duty (s : State) : (nextSolve s).duty = s.duty := by unfold nextSolve; split <;> rfl
@[simp] theorem nextSolve_items (s : State) : (nextSolve s).items = s.items := by unfold nextSolve; split <;> rfl
@[simp] theorem nextSolve_ring (s : State) : (nextSolve s).ring = s.ring := by unfold nextSolve; split <;> rfl
@[simp] theorem nextSolve_output (s : State) : (nextSolve s).output = s.output := by unfold nextSolve; split <;> rfl
@[simp] theorem nextSolve_stamps (s : State) : (nextSolve s).stamps = s.stamps := by unfold nextSolve; split <;> rfl
@[simp] theorem nextSolve_store (s : State) : (nextSolve s).store = s.store := by unfold nextSolve; split <;> rfl
@[simp] theorem nextSolve_pending (s : State) : (nextSolve s).pending = s.pending := by unfold nextSolve; split <;> rfl

/-! The output set -/

@[simp] theorem transferOutput_part (s : State) : (transferOutput s).part = s.part := by simp [transferOutput]
@[simp] theorem transferOutput_examined (s : State) : (transferOutput s).examined = s.examined := by simp [transferOutput]
@[simp] theorem transferOutput_intake (s : State) : (transferOutput s).intake = s.intake := by simp [transferOutput]
@[simp] theorem transferOutput_solver (s : State) : (transferOutput s).solver = s.solver := by simp [transferOutput]
@[simp] theorem transferOutput_table (s : State) : (transferOutput s).table = s.table := by simp [transferOutput]
@[simp] theorem transferOutput_evaluator (s : State) : (transferOutput s).evaluator = s.evaluator := by simp [transferOutput]
@[simp] theorem transferOutput_aid (s : State) : (transferOutput s).aid = s.aid := by simp [transferOutput]
@[simp] theorem transferOutput_ladder (s : State) : (transferOutput s).ladder = s.ladder := by simp [transferOutput]
@[simp] theorem transferOutput_duty (s : State) : (transferOutput s).duty = s.duty := by simp [transferOutput]
@[simp] theorem transferOutput_items (s : State) : (transferOutput s).items = s.items := by simp [transferOutput]
@[simp] theorem transferOutput_ring (s : State) : (transferOutput s).ring = s.ring := by simp [transferOutput]
@[simp] theorem transferOutput_stamps (s : State) : (transferOutput s).stamps = s.stamps := by simp [transferOutput]
@[simp] theorem transferOutput_store (s : State) : (transferOutput s).store = s.store := by simp [transferOutput]
@[simp] theorem transferOutput_pending (s : State) : (transferOutput s).pending = s.pending := by simp [transferOutput]
@[simp] theorem sendCabView_part (s : State) : (sendCabView s).part = s.part := by simp [sendCabView]
@[simp] theorem sendCabView_examined (s : State) : (sendCabView s).examined = s.examined := by simp [sendCabView]
@[simp] theorem sendCabView_intake (s : State) : (sendCabView s).intake = s.intake := by simp [sendCabView]
@[simp] theorem sendCabView_solver (s : State) : (sendCabView s).solver = s.solver := by simp [sendCabView]
@[simp] theorem sendCabView_table (s : State) : (sendCabView s).table = s.table := by simp [sendCabView]
@[simp] theorem sendCabView_evaluator (s : State) : (sendCabView s).evaluator = s.evaluator := by simp [sendCabView]
@[simp] theorem sendCabView_aid (s : State) : (sendCabView s).aid = s.aid := by simp [sendCabView]
@[simp] theorem sendCabView_ladder (s : State) : (sendCabView s).ladder = s.ladder := by simp [sendCabView]
@[simp] theorem sendCabView_duty (s : State) : (sendCabView s).duty = s.duty := by simp [sendCabView]
@[simp] theorem sendCabView_items (s : State) : (sendCabView s).items = s.items := by simp [sendCabView]
@[simp] theorem sendCabView_ring (s : State) : (sendCabView s).ring = s.ring := by simp [sendCabView]
@[simp] theorem sendCabView_stamps (s : State) : (sendCabView s).stamps = s.stamps := by simp [sendCabView]
@[simp] theorem sendCabView_store (s : State) : (sendCabView s).store = s.store := by simp [sendCabView]
@[simp] theorem sendCabView_pending (s : State) : (sendCabView s).pending = s.pending := by simp [sendCabView]

/-! The accumulators and the ring -/

@[simp] theorem recordHanded_part (a : Accum) (n : Nat) (s : State) : (recordHanded a n s).part = s.part := rfl
@[simp] theorem recordHanded_examined (a : Accum) (n : Nat) (s : State) : (recordHanded a n s).examined = s.examined := rfl
@[simp] theorem recordHanded_ports (a : Accum) (n : Nat) (s : State) : (recordHanded a n s).ports = s.ports := rfl
@[simp] theorem recordHanded_intake (a : Accum) (n : Nat) (s : State) : (recordHanded a n s).intake = s.intake := rfl
@[simp] theorem recordHanded_solver (a : Accum) (n : Nat) (s : State) : (recordHanded a n s).solver = s.solver := rfl
@[simp] theorem recordHanded_table (a : Accum) (n : Nat) (s : State) : (recordHanded a n s).table = s.table := rfl
@[simp] theorem recordHanded_evaluator (a : Accum) (n : Nat) (s : State) : (recordHanded a n s).evaluator = s.evaluator := rfl
@[simp] theorem recordHanded_aid (a : Accum) (n : Nat) (s : State) : (recordHanded a n s).aid = s.aid := rfl
@[simp] theorem recordHanded_ladder (a : Accum) (n : Nat) (s : State) : (recordHanded a n s).ladder = s.ladder := rfl
@[simp] theorem recordHanded_items (a : Accum) (n : Nat) (s : State) : (recordHanded a n s).items = s.items := rfl
@[simp] theorem recordHanded_ring (a : Accum) (n : Nat) (s : State) : (recordHanded a n s).ring = s.ring := rfl
@[simp] theorem recordHanded_output (a : Accum) (n : Nat) (s : State) : (recordHanded a n s).output = s.output := rfl
@[simp] theorem recordHanded_stamps (a : Accum) (n : Nat) (s : State) : (recordHanded a n s).stamps = s.stamps := rfl
@[simp] theorem recordHanded_store (a : Accum) (n : Nat) (s : State) : (recordHanded a n s).store = s.store := rfl
@[simp] theorem recordHanded_pending (a : Accum) (n : Nat) (s : State) : (recordHanded a n s).pending = s.pending := rfl
@[simp] theorem putNotice_part (n : Notice) (s : State) : (putNotice n s).part = s.part := rfl
@[simp] theorem putNotice_examined (n : Notice) (s : State) : (putNotice n s).examined = s.examined := rfl
@[simp] theorem putNotice_ports (n : Notice) (s : State) : (putNotice n s).ports = s.ports := rfl
@[simp] theorem putNotice_intake (n : Notice) (s : State) : (putNotice n s).intake = s.intake := rfl
@[simp] theorem putNotice_solver (n : Notice) (s : State) : (putNotice n s).solver = s.solver := rfl
@[simp] theorem putNotice_table (n : Notice) (s : State) : (putNotice n s).table = s.table := rfl
@[simp] theorem putNotice_evaluator (n : Notice) (s : State) : (putNotice n s).evaluator = s.evaluator := rfl
@[simp] theorem putNotice_aid (n : Notice) (s : State) : (putNotice n s).aid = s.aid := rfl
@[simp] theorem putNotice_ladder (n : Notice) (s : State) : (putNotice n s).ladder = s.ladder := rfl
@[simp] theorem putNotice_duty (n : Notice) (s : State) : (putNotice n s).duty = s.duty := rfl
@[simp] theorem putNotice_output (n : Notice) (s : State) : (putNotice n s).output = s.output := rfl
@[simp] theorem putNotice_stamps (n : Notice) (s : State) : (putNotice n s).stamps = s.stamps := rfl
@[simp] theorem putNotice_store (n : Notice) (s : State) : (putNotice n s).store = s.store := rfl
@[simp] theorem putNotice_pending (n : Notice) (s : State) : (putNotice n s).pending = s.pending := rfl
@[simp] theorem watermarkTest_part (r : Reader) (s : State) : (watermarkTest r s).part = s.part := by unfold watermarkTest; dsimp only; split <;> simp
@[simp] theorem watermarkTest_examined (r : Reader) (s : State) : (watermarkTest r s).examined = s.examined := by unfold watermarkTest; dsimp only; split <;> simp
@[simp] theorem watermarkTest_intake (r : Reader) (s : State) : (watermarkTest r s).intake = s.intake := by unfold watermarkTest; dsimp only; split <;> simp
@[simp] theorem watermarkTest_solver (r : Reader) (s : State) : (watermarkTest r s).solver = s.solver := by unfold watermarkTest; dsimp only; split <;> simp
@[simp] theorem watermarkTest_table (r : Reader) (s : State) : (watermarkTest r s).table = s.table := by unfold watermarkTest; dsimp only; split <;> simp
@[simp] theorem watermarkTest_evaluator (r : Reader) (s : State) : (watermarkTest r s).evaluator = s.evaluator := by unfold watermarkTest; dsimp only; split <;> simp
@[simp] theorem watermarkTest_aid (r : Reader) (s : State) : (watermarkTest r s).aid = s.aid := by unfold watermarkTest; dsimp only; split <;> simp
@[simp] theorem watermarkTest_ladder (r : Reader) (s : State) : (watermarkTest r s).ladder = s.ladder := by unfold watermarkTest; dsimp only; split <;> simp
@[simp] theorem watermarkTest_duty (r : Reader) (s : State) : (watermarkTest r s).duty = s.duty := by unfold watermarkTest; dsimp only; split <;> simp
@[simp] theorem watermarkTest_items (r : Reader) (s : State) : (watermarkTest r s).items = s.items := by unfold watermarkTest; dsimp only; split <;> simp
@[simp] theorem watermarkTest_output (r : Reader) (s : State) : (watermarkTest r s).output = s.output := by unfold watermarkTest; dsimp only; split <;> simp
@[simp] theorem watermarkTest_stamps (r : Reader) (s : State) : (watermarkTest r s).stamps = s.stamps := by unfold watermarkTest; dsimp only; split <;> simp
@[simp] theorem watermarkTest_store (r : Reader) (s : State) : (watermarkTest r s).store = s.store := by unfold watermarkTest; dsimp only; split <;> simp
@[simp] theorem watermarkTest_pending (r : Reader) (s : State) : (watermarkTest r s).pending = s.pending := by unfold watermarkTest; dsimp only; split <;> simp

end Sys2Proof.Laws
end

