-- ==== Sys2Proof/Laws/Requests.lean ====
section
/-! SUPPORT. Taking and answering a request: what a port's replacement does, the request a frame's code names, and the one
lemma that says what taking a request does when it passes the checks of R181. -/

namespace Sys2Proof.Laws

open Sys2Proof Sys2Proof.Machine

/-! ## Ports -/

@[simp] theorem portOf_setPort (l : Link) (p : Port) (s : State) : portOf (setPort l p s) l = p := by cases l <;> rfl

theorem portOf_setPort_ne (l k : Link) (p : Port) (s : State) (h : k ≠ l) : portOf (setPort l p s) k = portOf s k := by
  cases l <;> cases k <;> first | rfl | exact absurd rfl h

@[simp] theorem setPort_portOf (l : Link) (s : State) : setPort l (portOf s l) s = s := by cases l <;> rfl

@[simp] theorem setPort_setPort (l : Link) (p q : Port) (s : State) : setPort l p (setPort l q s) = setPort l p s := by
  cases l <;> rfl

/-- A port is read from the ports alone. -/
theorem portOf_congr {s t : State} (h : t.ports = s.ports) (l : Link) : portOf t l = portOf s l := by
  cases l <;> simp [portOf, h]

/-- Replacing a port forgets the ports that differ only there. -/
theorem setPort_of_ports {s t : State} (l : Link) (p q : Port) (h : t.ports = (setPort l q s).ports) :
    setPort l p t = setPort l p { t with ports := s.ports } := by
  cases l <;> simp only [setPort] at * <;> rw [h]

/-- A state is the ports of another when every port is. -/
theorem ports_ext {s t : State} (h : ∀ l, portOf s l = portOf t l) : s.ports = t.ports := by
  have hm := h .ml
  have hc := h .cl
  have hs := h .sl
  simp only [portOf] at hm hc hs
  cases hp : s.ports
  cases hq : t.ports
  simp_all

/-! ## The request a frame names -/

/-- An identifier as a number: its four fields side by side (spec/11 section 11.6). -/
theorem makeIdent_toNat {p c : Nat} (d s : Node) (hp : p < 8) (hc : c < 1024) :
    (makeIdent p c d s).toNat = p * 67108864 + c * 65536 + d.toNat * 256 + s.toNat := by
  have := d.isLt
  have := s.isLt
  unfold makeIdent
  rw [BitVec.toNat_ofNat, Nat.mod_eq_of_lt hc]
  exact Nat.mod_eq_of_lt (by omega)

/-- An identifier's four fields read back as they were put together. -/
theorem makeIdent_fields {p c : Nat} (d s : Node) (hp : p < 8) (hc : c < 1024) :
    identPriority (makeIdent p c d s) = p ∧ identCode (makeIdent p c d s) = c ∧
      identDest (makeIdent p c d s) = d ∧ identSource (makeIdent p c d s) = s := by
  have hd := d.isLt
  have hs := s.isLt
  unfold identPriority identCode identDest identSource
  rw [makeIdent_toNat d s hp hc]
  refine ⟨by omega, by omega, BitVec.eq_of_toNat_eq ?_, BitVec.eq_of_toNat_eq ?_⟩ <;>
    · rw [BitVec.toNat_ofNat]
      omega

/-- The code of each request names it (table of section 11.2). -/
@[simp] theorem requestOf_requestCode (r : Request) : requestOf (requestCode r) = some r := by cases r <;> rfl

/-- A frame of a request names it, and holds its data. -/
theorem isRequest_code {f : RxFrame} {r : Request} {d : Payload} (h : IsRequest f r d) :
    requestOf (frameCode f) = some r ∧ f.data = d := by
  obtain ⟨hd, i, hi, hc⟩ := h
  exact ⟨by simp [frameCode, hi, hc], hd⟩

/-! ## Taking a request -/

/-- The port of an offered request is ACTIVE. -/
theorem offered_active {s : State} {l : Link} {r : Request} {d : Payload} (h : Offered s l r d) :
    (portOf s l).state = .active := h.2.2.2.2.choose_spec.1.2.1

/-- A frame that stands at a port's head is the one it would take. -/
theorem atHead_frame {s : State} {l : Link} {f : RxFrame} (h : AtHead s l f) : headFrame s l = some f := by
  obtain ⟨hp, ha, hf⟩ := h
  simp [headFrame, hp, ha, hf]

/-- What taking a frame does, when the transmit queue has a place: the checks of R181 on the state without it. -/
theorem takeRequest_atHead {s : State} {l : Link} {f : RxFrame} {me : Instr} {serve : Payload → State → State}
    (h : AtHead s l f) (ht : takerOf l f = me) :
    takeRequest me l serve s = if hasPlace (portOf s l) then checkRequest l f serve (takeHead l s) else s := by
  simp [takeRequest, atHead_frame h, ht]

/-- A request that passes the checks of R181 goes to its owner, its frame taken and a place reserved. -/
theorem takeRequest_offered {s : State} {l : Link} {r : Request} {d : Payload} {me : Instr}
    {serve : Payload → State → State} (h : Offered s l r d) (ht : ∀ f, IsRequest f r d → takerOf l f = me) :
    takeRequest me l serve s = serve d (takeHead l s) := by
  obtain ⟨hp, hr, hq, hl, f, ha, hf⟩ := h
  obtain ⟨hc, hd⟩ := isRequest_code hf
  rw [takeRequest_atHead ha (ht f hf), if_pos hp]
  simp [checkRequest, hc, hd, hq, hr, hl]

/-- Taking the head frame changes the ports alone. -/
theorem takeHead_eq (l : Link) (s : State) : takeHead l s = { s with ports := (takeHead l s).ports } := by
  cases l <;> rfl

/-- An answer given after the head frame was taken, whatever else changed: the port as answered, the rest as it is. -/
theorem reply_takeHead {s t : State} {l : Link} (r : Request) (x : Result) (e : Echo)
    (ha : (portOf s l).state = .active) (h : t.ports = (takeHead l s).ports) :
    reply l r x e t = answer l r x e { t with ports := s.ports } := by
  have hp : portOf t l = { portOf s l with rx := (portOf s l).rx.tail, reserved := (portOf s l).reserved + 1 } := by
    rw [portOf_congr h l]; simp [takeHead]
  have hq : portOf { t with ports := s.ports } l = portOf s l := portOf_congr rfl l
  unfold reply sendAnswer answer
  rw [setPort_of_ports l _ _ h, hq, hp]
  simp [offerAnswer, ha, emit, answeredPort, frameOf]

end Sys2Proof.Laws
end

