-- ==== Sys2Proof/Laws/Store.lean ====
section
/-! SUPPORT. The store's triggers and dirty marks, the stamp slots, and the time base: what each can do, said once. -/

namespace Sys2Proof.Laws

open Sys2Proof Sys2Proof.Machine

/-! ## Triggers and dirty marks (R187) -/

/-- A save trigger starts a save, sets the save-again mark, or finds the restart save and does nothing (R187, R191). -/
theorem triggerSave_cases (s : State) :
    (s.store.save = none ∧ triggerSave s = startSave s) ∨
      ∃ v, s.store.save = some v ∧
        ((v.isRestart = true ∧ triggerSave s = s) ∨
          (v.isRestart = false ∧ triggerSave s = { s with store := { s.store with again := true } })) := by
  unfold triggerSave
  cases h : s.store.save with
  | none => exact .inl ⟨rfl, rfl⟩
  | some v => cases hr : v.isRestart <;> exact .inr ⟨v, rfl, by simp [hr]⟩

/-- After a trigger a save is in flight. -/
theorem triggerSave_saving (s : State) : (triggerSave s).store.save.isSome = true := by
  obtain ⟨_, h⟩ | ⟨v, hv, ⟨_, h⟩ | ⟨_, h⟩⟩ := triggerSave_cases s <;> rw [h] <;> simp [startSave, *]

/-- A save's snapshot does not look at the ports. -/
theorem snapshot_ports (p : Ports) (s : State) : snapshot { s with ports := p } = snapshot s := by
  funext r; cases r <;> rfl

/-- A trigger does not look at the ports. -/
theorem triggerSave_withPorts (p : Ports) (s : State) :
    triggerSave { s with ports := p } = { triggerSave s with ports := p } := by
  unfold triggerSave
  cases h : s.store.save with
  | none => simp [startSave, snapshot_ports]
  | some v => cases hr : v.isRestart <;> simp [hr]

/-- A dirty mark does not look at the ports. -/
theorem markDirty_withPorts (r : RecordId) (p : Ports) (s : State) :
    markDirty r { s with ports := p } = { markDirty r s with ports := p } :=
  triggerSave_withPorts p (markOnly r s)

/-- The record of a snapshot is the one it was taken for. -/
@[simp] theorem snapId_snapshot (s : State) (r : RecordId) : snapId (snapshot s r) = r := by cases r <;> rfl

/-! ## Stamp slots (R173, R176) -/

@[simp] theorem raiseSlot_empty {α : Type} (x : Slot α) (r : α) (h : x.held = none) :
    raiseSlot x r = { x with held := some r } := by simp [raiseSlot, h]

@[simp] theorem raiseSlot_held {α : Type} (x : Slot α) (r a : α) (h : x.held = some a) :
    raiseSlot x r = { x with hidden := true } := by simp [raiseSlot, h]

/-- An event leaves a HELD record. -/
theorem raiseSlot_keeps {α : Type} {x : Slot α} {a : α} (r : α) (h : x.held = some a) : (raiseSlot x r).held = some a := by
  simp [h]

/-- Events leave a HELD record. -/
theorem raiseAll_keeps {α : Type} (rs : List α) {x : Slot α} {a : α} (h : x.held = some a) :
    (raiseAll x rs).held = some a := by
  unfold raiseAll
  induction rs generalizing x with
  | nil => exact h
  | cons r rs ih => exact ih (raiseSlot_keeps r h)

/-- An event leaves a consistent slot consistent (R171). -/
theorem raiseSlot_ok {α : Type} (x : Slot α) (r : α) : SlotOk (raiseSlot x r) := by
  intro h
  cases hx : x.held <;> simp [hx] at h

/-- Events leave a consistent slot consistent (R171). -/
theorem raiseAll_ok {α : Type} (rs : List α) {x : Slot α} (h : SlotOk x) : SlotOk (raiseAll x rs) := by
  unfold raiseAll
  induction rs generalizing x with
  | nil => exact h
  | cons r rs ih => exact ih (raiseSlot_ok x r)

/-! ## The time base (log 2) -/

/-- Passing time changes no accumulator, item, ring, stamp or record of the image. -/
theorem elapse_store (ms : Nat) (s : State) :
    (elapse ms s).store = { s.store with timer := runDown ms s.store.timer } := rfl

theorem elapse_records (ms : Nat) (s : State) :
    (elapse ms s).ladder.records = s.ladder.records.map (runDemand ms) := rfl

@[simp] theorem runDemand_source (ms : Nat) (d : Demand) : (runDemand ms d).source = d.source := rfl
@[simp] theorem runDemand_rpm (ms : Nat) (d : Demand) : (runDemand ms d).rpm = d.rpm := rfl
@[simp] theorem runDemand_level (ms : Nat) (d : Demand) : (runDemand ms d).level = d.level := rfl
@[simp] theorem runDemand_stamp (ms : Nat) (d : Demand) : (runDemand ms d).stamp = d.stamp := rfl
@[simp] theorem runDemand_leading (ms : Nat) (d : Demand) : (runDemand ms d).leading = d.leading := rfl
@[simp] theorem runDemand_expired (ms : Nat) (d : Demand) : (runDemand ms d).expired = d.expired := rfl
@[simp] theorem runDemand_origin (ms : Nat) (d : Demand) : (runDemand ms d).origin = d.origin := rfl

end Sys2Proof.Laws
end

