-- ==== Sys2Proof/Laws/Edits.lean ====
section
/-! SUPPORT. What applying an edit leaves alone, and what one step of the edit queue's application can do (R50). -/

namespace Sys2Proof.Laws

open Sys2Proof Sys2Proof.Machine

@[simp] theorem editStep_apply (s : State) : editStep s .apply = applyHead s := rfl
@[simp] theorem editStep_take (s : State) (l : Link) : editStep s (.take l) = takeEditFrame l s := rfl

/-- With no edit waiting there is none to apply. -/
theorem applyHead_nil {s : State} (h : s.table.queue = []) : applyHead s = s := by simp [applyHead, h]

/-- The edit at the head of the queue leaves it and is applied. -/
theorem applyHead_cons {s : State} {q : QueuedEdit} {rest : List QueuedEdit} (h : s.table.queue = q :: rest) :
    applyHead s = performEdit { s with table := { s.table with queue := rest } } q := by simp [applyHead, h]

/-- A port that takes an edit request during the queue's application changes nothing, or takes the request of its head
frame as that request's own command does. -/
theorem takeEditFrame_cases (l : Link) (s : State) :
    takeEditFrame l s = s ∨ ∃ f serve, headFrame s l = some f ∧
      takeEditFrame l s = takeRequest (takerOf l f) l serve s ∧
      (requestOf (frameCode f) = some .zoneEdit ∧ serve = serveZoneEdit l ∨
        requestOf (frameCode f) = some .setGrade ∧ serve = serveSetGrade l ∨
        requestOf (frameCode f) = some .setGeometry ∧ serve = serveSetGeometry l) := by
  unfold takeEditFrame
  cases h : headFrame s l with
  | none => exact .inl rfl
  | some f =>
    dsimp only
    split
    · exact .inr ⟨f, _, rfl, rfl, .inl ⟨‹_›, rfl⟩⟩
    · exact .inr ⟨f, _, rfl, rfl, .inr (.inl ⟨‹_›, rfl⟩)⟩
    · exact .inr ⟨f, _, rfl, rfl, .inr (.inr ⟨‹_›, rfl⟩)⟩
    · exact .inl rfl

@[simp] theorem editRewrite_queue (s : State) : (editRewrite s).table.queue = s.table.queue := by
  simp only [editRewrite]; split <;> rfl

@[simp] theorem acceptZone_queue (n : Nat) (act : ZoneAction) (z : Zone) (s : State) :
    (acceptZone n act z s).table.queue = s.table.queue := by
  simp only [acceptZone, editRewrite_queue]
  split <;> split <;> simp [putZone, clearEntryMarks]

@[simp] theorem acceptPlane_queue (p : GradePlane) (s : State) : (acceptPlane p s).table.queue = s.table.queue := by
  simp only [acceptPlane, editRewrite_queue]
  split <;> simp [putPlane, clearEntryMarks]

/-- An applied edit never touches the edit queue. -/
@[simp] theorem applyEdit_queue (l : Link) (e : Edit) (s : State) : (applyEdit l e s).2.table.queue = s.table.queue := by
  cases e with
  | zone n act =>
    simp only [applyEdit, applyZone]
    split
    · rfl
    · split <;> simp_all
  | grade act =>
    simp only [applyEdit, applyPlane]
    split
    · rfl
    · split <;> simp_all
  | geometry g => simp [applyEdit, applyGeometry]

/-- Nor does its answer. -/
@[simp] theorem performEdit_queue (s : State) (q : QueuedEdit) : (performEdit s q).table.queue = s.table.queue := by
  simp [performEdit, replyLater]

/-- After the queue is applied no edit waits (R50). -/
@[simp] theorem applyQueue_queue (s : State) : (applyQueue s).table.queue = [] := by
  have fold : ∀ (qs : List QueuedEdit) (t : State), (qs.foldl performEdit t).table.queue = t.table.queue := by
    intro qs
    induction qs with
    | nil => intro t; rfl
    | cons q qs ih => intro t; simp [ih]
  simp [applyQueue, fold]

end Sys2Proof.Laws
end

