-- ==== Sys2Proof/Laws/Ports.lean ====
section
/-! SUPPORT. The ports and their transmit queues: what producing a frame of each kind can do (R182, R183), and the ports
as a whole. -/

namespace Sys2Proof.Laws

open Sys2Proof Sys2Proof.Machine

/-! ## A port that only sends -/

theorem OnlySends.refl (p : Port) : OnlySends p p := ⟨rfl, rfl, rfl, rfl, rfl⟩

theorem OnlySends.trans {p q r : Port} (h : OnlySends p q) (k : OnlySends q r) : OnlySends p r := by
  obtain ⟨a, b, c, d, e⟩ := h
  obtain ⟨a', b', c', d', e'⟩ := k
  exact ⟨a'.trans a, b'.trans b, c'.trans c, d'.trans d, e'.trans e⟩

theorem emit_onlySends (p : Port) (b : TxBody) : OnlySends p (emit p b) := ⟨rfl, rfl, rfl, rfl, rfl⟩

/-- A notice message enters the transmit queue or takes a periodic frame's place there, or is discarded (R182). -/
theorem offerNotice_onlySends (p : Port) (b : TxBody) : OnlySends p (offerNotice p b) := by
  unfold offerNotice
  split
  · exact OnlySends.refl p
  · split
    · exact emit_onlySends p b
    · split <;> exact ⟨rfl, rfl, rfl, rfl, rfl⟩

/-- A periodic message enters the transmit queue or is discarded (R182). -/
theorem offerPeriodic_onlySends (p : Port) (b : TxBody) : OnlySends p (offerPeriodic p b) := by
  unfold offerPeriodic
  split
  · exact emit_onlySends p b
  · exact OnlySends.refl p

/-! ## Places in the transmit queue -/

theorem hasPlace_iff (p : Port) : hasPlace p = true ↔ p.tx.length + p.reserved < 8 := by
  exact decide_eq_true_iff

/-- A notice message leaves the places taken within the eight (R182). -/
theorem offerNotice_places (p : Port) (b : TxBody) (h : p.tx.length + p.reserved ≤ 8) :
    (offerNotice p b).tx.length + (offerNotice p b).reserved ≤ 8 := by
  unfold offerNotice
  split
  · exact h
  · split
    · rename_i hp
      have := (hasPlace_iff p).1 hp
      simp only [emit, List.length_append, List.length_singleton]
      omega
    · split
      · rename_i hx
        obtain ⟨f, hf, hq⟩ := List.any_eq_true.1 hx
        have := List.length_eraseP_of_mem hf hq
        have := List.length_pos_of_mem hf
        simp only [emit, List.length_append, List.length_singleton]
        omega
      · exact h

/-- A periodic message leaves the places taken within the eight (R182). -/
theorem offerPeriodic_places (p : Port) (b : TxBody) (h : p.tx.length + p.reserved ≤ 8) :
    (offerPeriodic p b).tx.length + (offerPeriodic p b).reserved ≤ 8 := by
  unfold offerPeriodic
  split
  · rename_i hp
    have := (hasPlace_iff p).1 (by simpa using hp.2)
    simp only [emit, List.length_append, List.length_singleton]
    omega
  · exact h

/-- An answer that is owed gives its reserved place up, and fills it unless the port is BUS_OFF (R182, R183). -/
theorem offerAnswer_owed (p : Port) (b : TxBody) :
    offerAnswer p true b = { p with
      reserved := p.reserved - 1
      tx := if p.state = .active then p.tx ++ [frameOf p b] else p.tx } := by
  unfold offerAnswer emit frameOf
  by_cases h : p.state = .active <;> simp [h]

@[simp] theorem offerAnswer_notOwed (p : Port) (b : TxBody) : offerAnswer p false b = p := rfl

/-! ## The ports of a state -/

theorem AllOnlySend.refl (s : State) : AllOnlySend s s := fun _ => OnlySends.refl _

theorem AllOnlySend.trans {s t u : State} (h : AllOnlySend s t) (k : AllOnlySend t u) : AllOnlySend s u :=
  fun l => OnlySends.trans (h l) (k l)

/-- A change that leaves the ports alone sends nothing. -/
theorem allOnlySend_of_ports {s t : State} (h : t.ports = s.ports) : AllOnlySend s t := fun l => by
  rw [portOf_congr h l]; exact OnlySends.refl _

/-- Sending a notice message only sends. -/
theorem sendNotice_allOnlySend (l : Link) (b : TxBody) (s : State) : AllOnlySend s (sendNotice l b s) := fun k => by
  by_cases h : k = l
  · subst h
    simpa [sendNotice] using offerNotice_onlySends (portOf s k) b
  · rw [sendNotice, portOf_setPort_ne l k _ s h]
    exact OnlySends.refl _

/-- Sending a periodic message only sends. -/
theorem sendPeriodic_allOnlySend (l : Link) (b : TxBody) (s : State) : AllOnlySend s (sendPeriodic l b s) := fun k => by
  by_cases h : k = l
  · subst h
    simpa [sendPeriodic] using offerPeriodic_onlySends (portOf s k) b
  · rw [sendPeriodic, portOf_setPort_ne l k _ s h]
    exact OnlySends.refl _

/-- Reporting a dropped demand only sends (R110). -/
theorem sendDropped_allOnlySend (s : State) (d : Drop) : AllOnlySend s (sendDropped s d) := by
  unfold sendDropped
  split
  · exact sendNotice_allOnlySend _ _ _
  · exact AllOnlySend.refl s

/-- A fold of steps that only send only sends. -/
theorem foldl_allOnlySend {α : Type} (f : State → α → State) (h : ∀ s a, AllOnlySend s (f s a)) (xs : List α) (s : State) :
    AllOnlySend s (xs.foldl f s) := by
  induction xs generalizing s with
  | nil => exact AllOnlySend.refl s
  | cons x xs ih => exact AllOnlySend.trans (h s x) (ih _)

end Sys2Proof.Laws
end

