-- ==== Sys2Proof/Laws/Ladder.lean ====
section
/-! SUPPORT. The demand ladder: placing, withdrawing and ordering records, promotion, and one ladder event whole. -/

namespace Sys2Proof.Laws

open Sys2Proof Sys2Proof.Machine

/-! ## Records -/

theorem mem_insertDemand (c : LadderConfig) (d x : Demand) (ds : List Demand) :
    x ∈ insertDemand c d ds ↔ x = d ∨ x ∈ ds := by
  induction ds with
  | nil => simp [insertDemand]
  | cons y ys ih =>
    unfold insertDemand
    split
    · simp
    · simp [ih, or_left_comm]

theorem mem_sortDemands (c : LadderConfig) (x : Demand) (ds : List Demand) : x ∈ sortDemands c ds ↔ x ∈ ds := by
  induction ds with
  | nil => simp [sortDemands]
  | cons y ys ih => simp [sortDemands, mem_insertDemand, ih]

/-- A withdrawn source has no record (R109). -/
@[simp] theorem demandOf_withoutSource (src : Source) (ds : List Demand) : demandOf src (withoutSource src ds) = none := by
  simp [demandOf, withoutSource]

/-- A record that the ladder holds of a source is one of its records, and of that source. -/
theorem demandOf_some {src : Source} {ds : List Demand} {d : Demand} (h : demandOf src ds = some d) :
    d ∈ ds ∧ d.source = src :=
  ⟨List.mem_of_find?_eq_some h, by simpa using List.find?_some h⟩

/-- The ladder holds a source's record exactly when some record is of that source. -/
theorem demandOf_isSome {src : Source} {ds : List Demand} : (demandOf src ds).isSome ↔ ∃ d ∈ ds, d.source = src := by
  simp [demandOf]

/-! ## Promotion (R106) -/

/-- The records that R106 leaves are records it found, their marks of place and their wait limits apart. -/
theorem mem_settle {ds : List Demand} {y : Demand} (h : y ∈ (settle ds).1) :
    ∃ x ∈ ds, y.source = x.source ∧ y.level = x.level ∧ y.rpm = x.rpm ∧ y.duration = x.duration ∧ y.origin = x.origin ∧
      y.stamp = x.stamp ∧ y.expired = x.expired := by
  induction ds with
  | nil => simp [settle] at h
  | cons d ds ih =>
    unfold settle at h
    split at h
    · rcases List.mem_cons.1 h with rfl | h
      · exact ⟨_, List.mem_cons_self, rfl, rfl, rfl, rfl, rfl, rfl, rfl⟩
      · obtain ⟨x, hx, rfl⟩ := List.mem_map.1 h
        exact ⟨x, List.mem_cons_of_mem _ hx, rfl, rfl, rfl, rfl, rfl, rfl, rfl⟩
    · split at h
      · obtain ⟨x, hx, k⟩ := ih h
        exact ⟨x, List.mem_cons_of_mem _ hx, k⟩
      · split at h
        · obtain ⟨x, hx, k⟩ := ih h
          exact ⟨x, List.mem_cons_of_mem _ hx, k⟩
        · rcases List.mem_cons.1 h with rfl | h
          · exact ⟨d, List.mem_cons_self, rfl, rfl, rfl, rfl, rfl, rfl, rfl⟩
          · obtain ⟨x, hx, rfl⟩ := List.mem_map.1 h
            exact ⟨x, List.mem_cons_of_mem _ hx, rfl, rfl, rfl, rfl, rfl, rfl, rfl⟩

/-- R106 removes no record but one that is marked wait-expired or has no duration left. -/
theorem settle_keeps {ds : List Demand} {x : Demand} (h : x ∈ ds) (he : x.expired = false) (hd : x.duration ≠ some 0) :
    ∃ y ∈ (settle ds).1, y.source = x.source := by
  induction ds with
  | nil => cases h
  | cons d ds ih =>
    unfold settle
    rcases List.mem_cons.1 h with rfl | h
    · split
      · exact ⟨x, List.mem_cons_self, rfl⟩
      · simp [he]
    · have hx : follow x ∈ ds.map follow := List.mem_map_of_mem h
      split
      · exact ⟨follow x, List.mem_cons_of_mem _ hx, rfl⟩
      · split
        · exact ih h
        · split
          · exact ih h
          · exact ⟨follow x, List.mem_cons_of_mem _ hx, rfl⟩

/-- After R106 only the first record leads. -/
theorem settle_tail (ds : List Demand) : ∀ d ∈ (settle ds).1.tail, d.leading = false := by
  induction ds with
  | nil => simp [settle]
  | cons d ds ih =>
    unfold settle
    split
    · simp [follow]
    · split
      · exact ih
      · split
        · exact ih
        · simp [follow]

/-! ## One event at the ladder -/

/-- DEMAND_DROPPED changes the ports alone. -/
theorem foldl_sendDropped (ds : List Drop) (s : State) :
    ds.foldl sendDropped s = { s with ports := (ds.foldl sendDropped s).ports } := by
  induction ds generalizing s with
  | nil => rfl
  | cons d ds ih =>
    simp only [List.foldl_cons]
    rw [ih]
    unfold sendDropped sendNotice
    split
    · rename_i l _
      cases l <;> rfl
    · rfl

/-- One event at the ladder changes the ladder, its group of the pending set, and the ports, which only send. -/
theorem ladderEvent_spec (L : Ladder) (drops : List Drop) (s : State) :
    let w := watchShutdown (autoIdleActive s.ladder) { L with records := (settle L.records).1 }
    ladderEvent L drops s = { retarget w s with ports := (ladderEvent L drops s).ports } ∧
      AllOnlySend s (ladderEvent L drops s) := by
  constructor
  · exact foldl_sendDropped _ _
  · exact AllOnlySend.trans (allOnlySend_of_ports rfl) (foldl_allOnlySend _ sendDropped_allOnlySend _ _)

/-- The watch changes its timer and its flag alone (R114). -/
theorem watchShutdown_spec (b : Bool) (L : Ladder) :
    watchShutdown b L = { L with
      shutdownTimer := (watchShutdown b L).shutdownTimer, advise := (watchShutdown b L).advise } := by
  unfold watchShutdown
  split
  · split <;> rfl
  · rfl
  · rfl

/-! ## Target and next rpm (R118) -/

/-- An rpm formed by R118 lies in 700 to 2100. -/
theorem boundRpm_range (L : Ladder) (x : Int) : 700 ≤ boundRpm L x ∧ boundRpm L x ≤ 2100 := by
  unfold boundRpm clampRpm clamp
  split
  · omega
  · split <;> omega

/-- The target rpm lies in 700 to 2100. -/
theorem formTarget_range (L : Ladder) : 700 ≤ formTarget L ∧ formTarget L ≤ 2100 := by
  unfold formTarget
  split <;> exact boundRpm_range L _

end Sys2Proof.Laws
end

