-- ==== Sys2Proof/Laws/Ring.lean ====
section
/-! SUPPORT. The reminder ring and the service schedule: the readers, producing a notice, releasing positions, and passing
the SERVICE request on. -/

namespace Sys2Proof.Laws

open Sys2Proof Sys2Proof.Machine

/-! ## Readers -/

@[simp] theorem readerOf_setReader (r : Reader) (x : ReaderState) (g : Ring) : readerOf (setReader r x g) r = x := by
  cases r <;> rfl

theorem readerOf_setReader_ne (r q : Reader) (x : ReaderState) (g : Ring) (h : q ≠ r) :
    readerOf (setReader r x g) q = readerOf g q := by
  cases r <;> cases q <;> first | rfl | exact absurd rfl h

@[simp] theorem setReader_slots (r : Reader) (x : ReaderState) (g : Ring) : (setReader r x g).slots = g.slots := by
  cases r <;> rfl

@[simp] theorem setReader_put (r : Reader) (x : ReaderState) (g : Ring) : (setReader r x g).put = g.put := by
  cases r <;> rfl

@[simp] theorem setReader_readerOf (r : Reader) (g : Ring) : setReader r (readerOf g r) g = g := by cases r <;> rfl

/-! ## Positions released (R155) -/

/-- Releasing a position changes the ring's slots, the items and SL's port alone. -/
theorem foldl_sendRetired (ks : List Nat) (s : State) :
    ks.foldl sendRetired s = { s with ports := (ks.foldl sendRetired s).ports } := by
  induction ks generalizing s with
  | nil => rfl
  | cons k ks ih =>
    simp only [List.foldl_cons]
    rw [ih]
    rfl

/-- A position released: its slot holds no notice, its item forgets it, and only frames are sent. -/
theorem releasePosition_spec (s : State) (p : Nat) :
    (releasePosition s p = { s with
      ports := (releasePosition s p).ports
      ring := { s.ring with slots := s.ring.slots.set p none }
      items := s.items.map (releaseItem p) }) ∧ AllOnlySend s (releasePosition s p) := by
  constructor
  · exact foldl_sendRetired _ _
  · exact AllOnlySend.trans (allOnlySend_of_ports rfl)
      (foldl_allOnlySend _ (fun t k => sendNotice_allOnlySend _ _ t) _ _)

/-- Releasing positions leaves the readers and the put index, and only sends. -/
theorem foldl_releasePosition (ps : List Nat) (s : State) :
    (∃ slots items, ps.foldl releasePosition s =
      { s with ports := (ps.foldl releasePosition s).ports, ring := { s.ring with slots := slots }, items := items }) ∧
      AllOnlySend s (ps.foldl releasePosition s) := by
  induction ps generalizing s with
  | nil => exact ⟨⟨_, _, rfl⟩, AllOnlySend.refl s⟩
  | cons p ps ih =>
    obtain ⟨h, ho⟩ := releasePosition_spec s p
    obtain ⟨⟨slots, items, k⟩, ko⟩ := ih (releasePosition s p)
    refine ⟨⟨slots, items, ?_⟩, AllOnlySend.trans ho ko⟩
    simp only [List.foldl_cons]
    rw [k, h]

/-! ## A notice produced (R154) -/

/-- A notice is lost to both readers while the service reader is full. -/
theorem produceNotice_lost (n : Notice) (s : State) (h : 32 ≤ s.ring.service.unread) :
    produceNotice n s = { s with ring := { s.ring with service := { s.ring.service with lost := true } } } := by
  unfold produceNotice
  rw [if_pos (by simpa [Config.ringSize] using h)]

/-- A notice is written once the cab's oldest is dropped, when the cab reader is full. -/
theorem produceNotice_written (n : Notice) (s : State) (h : s.ring.service.unread < 32) :
    produceNotice n s = watermarkTest .service (watermarkTest .cab
      (putNotice n (if 32 ≤ s.ring.cab.unread then dropCab s else s))) := by
  unfold produceNotice
  rw [if_neg (by simpa [Config.ringSize] using h)]
  by_cases hc : 32 ≤ s.ring.cab.unread
  · rw [if_pos (by simpa [Config.ringSize] using hc), if_pos hc]
  · rw [if_neg (by simpa [Config.ringSize] using hc), if_neg hc]

/-- The watermark test tells a reader once and disarms it, or does nothing (R160). -/
theorem watermarkTest_cases (r : Reader) (s : State) :
    watermarkTest r s = s ∨
      ((readerOf s.ring r).armed = true ∧ (readerOf s.ring r).watermark ≤ (readerOf s.ring r).unread ∧
        watermarkTest r s = sendNotice (linkOfReader r)
          (.ringWatermark r (readerOf s.ring r).unread (readerOf s.ring r).lost)
          { s with ring := setReader r { readerOf s.ring r with armed := false } s.ring }) := by
  unfold watermarkTest
  dsimp only
  split
  · rename_i h
    exact .inr ⟨h.2.1, h.2.2, rfl⟩
  · exact .inl rfl

/-! ## Items -/

/-- The state that a progress selects is one of the four that follow progress (R142). -/
theorem stateAt_rank (f : ItemFields) (p : Nat) : (stateRank (stateAt f p)).isSome = true := by
  unfold stateAt
  split
  · rfl
  · split
    · rfl
    · split <;> rfl

/-- After the schedule has passed its request on, the ladder holds it (R145). -/
theorem syncService_service (s : State) : (syncService s).ladder.service = serviceWanted s.items := by
  unfold syncService serviceRequest
  split
  · assumption
  · rfl

/-- Passing the SERVICE request on changes the ladder and its group of the pending set alone. -/
theorem syncService_cases (s : State) :
    syncService s = s ∨ syncService s = retarget { s.ladder with service := serviceWanted s.items } s := by
  unfold syncService serviceRequest
  split
  · exact .inl rfl
  · exact .inr rfl

/-! ## Accumulators -/

@[simp] theorem accGet_accSet {α : Type} (v : Six α) (a : Accum) (x : α) : accGet (accSet v a x) a = x := by cases a <;> rfl

theorem accGet_accSet_ne {α : Type} (v : Six α) (a b : Accum) (x : α) (h : b ≠ a) :
    accGet (accSet v a x) b = accGet v b := by
  cases a <;> cases b <;> first | rfl | exact absurd rfl h

@[simp] theorem accGet_sixAccums {α : Type} (f : Accum → α) (a : Accum) : accGet (sixAccums f) a = f a := by cases a <;> rfl

@[simp] theorem actGet_sixActs {α : Type} (f : Actuator → α) (a : Actuator) : actGet (sixActs f) a = f a := by
  cases a <;> rfl

/-- An accumulator never decreases by an addition, keeps its LOST mark, and stays at its greatest value (R133). -/
theorem raiseValue_spec (a : Accum) (n : Nat) (v : AccumValue) :
    (raiseValue a n v).lost = v.lost ∧ v.value ≤ (raiseValue a n v).value ∧
      (v.value ≤ accumMax a → (raiseValue a n v).value = min (accumMax a) (v.value + n)) := by
  unfold raiseValue
  split
  · exact ⟨rfl, Nat.le_refl _, fun h => by omega⟩
  · split
    · exact ⟨rfl, by simp only; omega, fun h => by simp only; omega⟩
    · exact ⟨rfl, by simp only; omega, fun h => by simp only; omega⟩

/-- An addition of nothing leaves the rest formed. -/
@[simp] theorem heldRest_nothing (a : Accum) (units : Nat) (v : AccumValue) (rest : Nat) :
    heldRest a 0 units v rest = rest := by simp [heldRest]

/-- A remainder is the rest formed, or 0, and 0 only where something is added and the value then stands at its greatest
(R133). -/
theorem heldRest_cases (a : Accum) (added units : Nat) (v : AccumValue) (rest : Nat) :
    (heldRest a added units v rest = rest ∧ (added = 0 ∨ v.value < accumMax a ∧ v.value + units ≤ accumMax a)) ∨
      (heldRest a added units v rest = 0 ∧ 0 < added ∧ accumMax a ≤ v.value + units) := by
  unfold heldRest
  split <;> omega

/-- A payload of 0 leaves the accumulators as they were (R132). -/
@[simp] theorem addTonnes_zero (d : Duty) : addTonnes 0 d = d := rfl

end Sys2Proof.Laws
end

