-- ==== Sys2Proof/Tests/Slice0.lean ====
section
/-! SUPPORT. Small tests of single steps, their expected results from the worked cases and rules of spec/; the smoke tests
of WellFormed; and, for every statement with hypotheses, a witness that meets them. -/

namespace Sys2Proof.Tests

set_option Elab.async false

open Sys2Proof Sys2Proof.Machine

/-! ## Helpers -/

/-- The state after one command. -/
def run (c : Instr) (s : State) : State :=
  match exec c s with
  | .next t => t
  | _ => s

/-- The part WAITING, over a blank image. -/
def ready : State := { State.reset with part := .waiting, examined := 73 }

/-- A frame of a request from a port's partner. -/
def frameFor (p : Port) (r : Request) (d : Payload) : RxFrame :=
  ⟨.extended (makeIdent 3 (requestCode r) p.nodes.own p.nodes.partner), d⟩

/-- The state with one request waiting on a link. -/
def offering (l : Link) (r : Request) (d : Payload) (s : State) : State :=
  setPort l { portOf s l with rx := [frameFor (portOf s l) r d] } s

/-- The newest frame a port has to send, as its result code where it is a RESPONSE. -/
def answered (s : State) (l : Link) : Option Result :=
  match (portOf s l).tx.getLast? with
  | some ⟨_, .response _ r _⟩ => some r
  | _ => none

/-- The newest frame a port has to send. -/
def newest (s : State) (l : Link) : Option TxBody := (portOf s l).tx.getLast?.map TxFrame.body

/-- The part with a solve at a stage. -/
def solving (v : Solve) : State := { ready with solver := { ready.solver with solve := v } }

/-- The front of the worked poses (spec/02 section 2.3). -/
def front : Geometry := { workingGeometry with x0 := 600, z0 := 2400, lb := 7000, la := 3500, lk := 1800 }

/-- Every channel valid. -/
def allValid : Validity :=
  ⟨true, true, true, true, true, true, true, true, true, true, true, true, true, true⟩

/-- The sample of the worked pose (spec/02 section 2.3). -/
def sample1 : Sample :=
  { seq := 40, lever := false, travel := false, operator := true, timestamp := 5000, valid := allValid
    boomPrimary := 4096, boomSecondary := 4096, arm := -12288, bucket := -8192, slew := 12000, pitch := 0, roll := 0
    boomHead := 20000, boomRod := 14000, armHead := 1000, engine := 1200, fuel := 4500, coolant := 85, oil := 70 }

/-- A latch of a sample that is no restart solve. -/
def latch1 : Latch :=
  { sample := sample1, control := defaultControl, geometry := .present front, phase := .swingLoaded, restart := false
    last := some ⟨39, 4980, 11818, 0⟩ }

/-- The points of the worked pose under NEAREST. -/
def points1 : Points := ⟨⟨7067, 5079⟩, ⟨9542, 2604⟩, ⟨9542, 804⟩⟩

/-- The pose of the worked evaluation (spec/04 section 4.8). -/
def pose1 : PoseResult :=
  { points := some points1, psi := 12000, omega := -5000, bucket := -8192, causes := noCauses, quality := .good
    interval := 20, slewChange := some (-100) }

/-- A WITHHELD pose. -/
def pose0 : PoseResult := { pose1 with quality := .withheld, causes := ⟨{ noMarks with range := true }, false⟩ }

/-- No event and no request. -/
def aids0 : AidsResult := ⟨none, .none, none, none, none⟩

/-- The railway stop (spec/03 section 3.2). -/
def railway : ZoneBody := ⟨.sectorStop, 60000, 6000, false, 0, 546⟩

/-- The reach wall at the track (spec/04 section 4.8). -/
def wall : ZoneBody := ⟨.reachWall, 58000, 8000, false, 10000, 800⟩

/-- The operator ceiling (spec/04 section 4.8). -/
def line : ZoneBody := ⟨.ceiling, 21000, 29000, false, 10500, 5000⟩

/-- The sloping cut (spec/03 section 3.5). -/
def cut : PlaneBody := ⟨-3000, -20, 50, true, 1500⟩

/-- The table of the worked evaluation. -/
def table1 : EnvTable :=
  { resetTable with
    zones := ((resetTable.zones.set 3 (.active .site railway)).set 7 (.active .operator line)).set 9 (.active .site wall) }

/-- A record of the ladder. -/
def demand (src : Source) (level : Nat) (rpm : Int) (duration wait : Option Nat) (o : DemandOrigin) (stamp : Nat)
    (first : Bool) : Demand := ⟨src, level, rpm, duration, wait, false, o, stamp, first⟩

/-- The ladder of step 3 of spec/06 section 6.9. -/
def ladder3 : Ladder :=
  { resetLadder with
    records := [demand .test 0 1200 (some 2000) none (.link .sl) 7 true,
      demand .digBoost 1 2100 (some 9400) none .internal 5 false,
      demand .regen 1 1900 none (some 300) (.link .ml) 6 false, demand .mode 4 1600 none none (.link .cl) 4 false]
    counter := 8, target := 1200, next := 2100 }

/-- The part with that ladder. -/
def laddered : State :=
  { ready with
    ladder := ladder3
    output := { ready.output with pending := { ready.output.pending with target := 1200, next := 2100 } } }

/-- The engine oil service (spec/08 section 8.2). -/
def oil : ItemFields := ⟨.engineTime, .advisory, 5000, 200, 500, 100, 40000, false⟩

/-- The part with one item 5. -/
def withItem (i : Item) : State := { ready with items := ready.items.set 5 i }

/-- The store with a save in flight that has one accumulator record to write and owes SAVE_DONE. -/
def saving (v : Save) : State := { ready with store := { ready.store with save := some v } }

/-- A save of the FUEL record alone. -/
def fuelSave : Save := ⟨[.accumulator .fuel ⟨7, false⟩], 6, 0, true, false⟩

/-! ## The arithmetic of the worked cases -/

/-- Spec/02 section 2.2, worked sines and cosines. -/
theorem test_sines :
    [100, 96, 4096, 20480, 32868, 49152, 57344, 65436].map sine = [157, 151, 6270, 15137, -157, -16384, -11585, -157] ∧
      [4096, 57344, 49152].map cosine = [15137, 11585, 0] := by decide +kernel

/-- Spec/02 section 2.3, ties under NEAREST. -/
theorem test_ties :
    [94904320, -94904320, 1236992].map (roundTerm .nearest) = [5792, -5792, 76] ∧
      [94904320, -94904320, 1236992].map (roundTerm .up) = [5793, -5792, 76] := by decide +kernel

/-- Spec/02 section 2.3, one pose in the four rounding modes. -/
theorem test_pose_modes :
    (([Rounding.towardZero, .up, .down].map fun m =>
      (poseResult { latch1 with control := { defaultControl with rounding := m } } ⟨0, 0, 0, 0, 0⟩).points)
      = [some ⟨⟨7067, 5078⟩, ⟨9541, 2604⟩, ⟨9541, 804⟩⟩, some ⟨⟨7068, 5079⟩, ⟨9543, 2605⟩, ⟨9543, 805⟩⟩,
        some ⟨⟨7067, 5078⟩, ⟨9541, 2603⟩, ⟨9541, 803⟩⟩]) := by decide +kernel

/-- Spec/04 section 4.4, slew allowances: both phases, a short distance, the guard, and the greatest product. -/
theorem test_allowances :
    (slewAllowance 1820 182 5461 8738).scale = 483 ∧ (slewAllowance 1820 182 3641 8738).omegaMax = 3453 ∧
      (slewAllowance 183 182 100 8738).scale = 1 ∧ (slewAllowance 150 182 5461 8738).scale = 0 ∧
      (slewAllowance 65535 0 20000 8738).omegaMax = 51199 := by decide +kernel

/-- Spec/05 section 5.6, payloads: between points, beyond truncation, below the table, saturated. -/
theorem test_payload :
    let t : Eight PayloadPoint := ⟨⟨3000, 420, 95⟩, ⟨5000, 510, 108⟩, ⟨7000, 600, 120⟩, ⟨9000, 700, 140⟩, ⟨11000, 810, 162⟩,
      ⟨13000, 930, 185⟩, ⟨15000, 1060, 210⟩, ⟨17000, 1200, 238⟩⟩
    payloadKg t 1200 8000 = 7150 ∧ payloadKg t 1500 12345 = 10797 ∧ payloadKg t 800 2500 = 3610 ∧
      payloadKg t 500 9000 = 0 ∧ payloadKg t 32767 2500 = 65535 := by decide +kernel

/-- Spec/06 section 6.7, the target chain: a ceiling beats the floor and the idle rpm. -/
theorem test_target_chain :
    boundRpm { resetLadder with warmup := true, economy := { defaultEconomy with fleetCap := 900 } } 800 = 900 ∧
      boundRpm { resetLadder with service := true, economy := { defaultEconomy with fleetCap := 1800 } } 2100 = 1500 ∧
      formTarget { resetLadder with economy := { defaultEconomy with fleetCap := 700 } } = 700 := by decide +kernel

/-- Spec/07 sections 7.4 and 7.4's completed cycle: the second solve, and a DUMP with 7150 kg. -/
theorem test_integrate :
    let d : Duty := { resetDuty with
      values := ⟨⟨3599999, false⟩, ⟨2000000, false⟩, ⟨12345678, false⟩, ⟨1000000000, false⟩, ⟨12349, false⟩, ⟨50999, false⟩⟩
      engineMs := 950, loadMs := 990, tonnesKg := 500 }
    let t := integrate ⟨20, true, 1200, true, 4500, some 182, false, some (some 7150)⟩ d
    t.values = ⟨⟨3599999, false⟩, ⟨2000001, false⟩, ⟨12345680, false⟩, ⟨1000000182, false⟩, ⟨12350, false⟩, ⟨51006, false⟩⟩ ∧
      t.engineMs = 970 ∧ t.loadMs = 20 ∧ t.fuelRest = 18000 ∧ t.tonnesKg = 650 := by decide +kernel

/-- R132 and R133: at the greatest value of TONNES a payload of 0 leaves the remainder, one of 500 kg holds it at 0. -/
theorem test_integrate_payload_at_greatest :
    let d : Duty := { resetDuty with values := accSet resetDuty.values .tonnes ⟨4294967295, false⟩, tonnesKg := 650 }
    addCompleted (some (some 0)) d = addCycle d ∧ (addCompleted (some (some 500)) d).tonnesKg = 0 ∧
      (addCompleted (some (some 500)) d).values.p5 = ⟨4294967295, false⟩ := by decide +kernel

/-! ## Resets and the load -/

/-- R188, R186: a reset during the writing of a record spoils it. -/
theorem test_power_on_reset :
    (run (.powerOnReset .during) (saving fuelSave)).part = .loading ∧
      (run (.powerOnReset .during) (saving fuelSave)).store.image.accumulators.p2 = .bad := by decide +kernel

/-- Spec/10 section 10.4, a fault at load: zone 12's record fails its check. -/
theorem test_load_record_examined :
    let s := run .loadRecordExamined
      { State.reset with
        examined := 15, store := resetStore { blankImage with zones := blankImage.zones.set 12 .bad } }
    s.examined = 16 ∧ s.stamps.storeFault.held = some ⟨.load, .zone 12⟩ := by decide +kernel

/-- The image of spec/09 section 9.2. -/
def image9 : Image :=
  { blankImage with
    zones := (blankImage.zones.set 3 (.good (some ⟨true, railway⟩))).set 9 (.good (some ⟨true, wall⟩))
    grade := .good (some cut), geometry := .good front }

/-- The load of that image at its end. -/
def loaded9 : State := { State.reset with examined := 73, store := resetStore image9 }

/-- Spec/09 section 9.2, the sets after a reset. -/
theorem test_load_completion :
    let s := run .loadCompletion loaded9
    s.part = .waiting ∧ s.output.active.scales = ⟨1000, 300, 300, 300, 0, 0⟩ ∧
      s.output.active.binding = ⟨none, some 9, some 32, some 9, some 3, some 3⟩ ∧ s.output.active.target = 800 := by
  decide +kernel

/-! ## Links -/

/-- A frame of the ML partner. -/
def frameMl : RxFrame := frameFor ready.ports.ml .keyOff (.bytes [])

/-- R179, R180: a frame is queued, and the ninth sets the overrun flag. -/
theorem test_frame_received :
    (run (.frameReceived .ml frameMl) ready).ports.ml.rx = [frameMl] ∧
      let full := setPort .ml { ready.ports.ml with rx := List.replicate 8 frameMl } ready
      (run (.frameReceived .ml frameMl) full).ports.ml.overrun = true ∧
        (run (.frameReceived .ml frameMl) full).ports.ml.rx.length = 8 := by decide +kernel

/-- R182: the oldest frame leaves. -/
theorem test_frame_transmitted :
    let s := setPort .ml { ready.ports.ml with tx := [⟨0, .retireDone 1⟩, ⟨0, .retireDone 2⟩] } ready
    (run (.frameTransmitted .ml) s).ports.ml.tx = [⟨0, .retireDone 2⟩] := by decide +kernel

/-- R183: the queues empty, and the frame that waited sets the overrun flag. -/
theorem test_bus_off :
    let s := run (.busOff .ml) (setPort .ml { ready.ports.ml with rx := [frameMl] } ready)
    s.ports.ml.state = .busOff ∧ s.ports.ml.rx = [] ∧ s.ports.ml.overrun = true := by decide +kernel

/-- R183: the port returns, its overrun flag as it stands. -/
theorem test_bus_off_recovery :
    let s := setPort .ml { ready.ports.ml with state := .busOff, overrun := true } ready
    (run (.busOffRecovery .ml) s).ports.ml = { ready.ports.ml with overrun := true } := by decide +kernel

/-- Check 1 of R181: code 19 names no request. -/
theorem test_unknown_request :
    let f : RxFrame := ⟨.extended (makeIdent 3 19 40 20), .bytes []⟩
    answered (run (.unknownRequest .cl) (setPort .cl { ready.ports.cl with rx := [f] } ready)) .cl = some .badField := by
  decide +kernel

/-- R185: vendor 1187, part 2740, revision 3. -/
theorem test_identify :
    newest (run (.identify .sl) (offering .sl .identify (.bytes []) ready)) .sl =
      some (.response 33 .ok (.identify 1187 2740 3 .waiting ⟨40, 30⟩ false)) := by decide +kernel

/-- R168: the answer, and the port's flag cleared. -/
theorem test_status_query :
    let s := setPort .cl { ready.ports.cl with overrun := true } ready
    let t := run (.statusQuery .cl) (offering .cl .statusQuery (.bytes []) s)
    answered t .cl = some .ok ∧ t.ports.cl.overrun = false := by decide +kernel

/-- The second of the four checks: SET_MODE is not permitted on SL. -/
theorem test_not_permitted :
    answered (run (.setMode .sl) (offering .sl .setMode (.setMode (some .power)) ready)) .sl = some .notPermitted := by
  decide +kernel

/-! ## Samples, solves and sample loss -/

/-- R3, R5, R8: SAMPLE 40 begins a solve; it restarts the stale timer. -/
theorem test_sample :
    let s := run (.sample .ml) (offering .ml .sample (.bytes (sampleBytes sample1)) ready)
    s.intake.lastTaken = some 40 ∧ s.intake.stale = some ⟨100, 100⟩ ∧ s.solver.solve ≠ .idle ∧ s.ports.ml.rx = [] := by
  decide +kernel

/-- Step 2 of spec/01 section 1.6: a sample during a solve waits in the pending slot. -/
theorem test_sample_pending :
    (run (.sample .ml) (offering .ml .sample (.bytes (sampleBytes sample1)) (solving (.pose latch1)))).intake.slot =
      some sample1 := by decide +kernel

/-- Spec/02 section 2.3 under NEAREST, and section 2.4's ordinary case: 182 AU in 20 ms. -/
theorem test_stage_pose :
    (match (run .stagePose (solving (.pose latch1))).solver.solve with
    | .evaluate _ p => decide (p.points = some points1 ∧ p.omega = 9100 ∧ p.quality = .good)
    | _ => false) = true := by decide +kernel

/-- Spec/04 section 4.8, one evaluation, whole. -/
theorem test_stage_evaluate :
    let s := run .stageEvaluate { solving (.evaluate latch1 pose1) with table := table1 }
    s.evaluator.record.scales = ⟨1000, 1000, 1000, 1000, 1000, 603⟩ ∧
      s.evaluator.record.binding.p4 = some 3 ∧ s.evaluator.record.binding.p5 = some 9 := by decide +kernel

/-- The start of stage AIDS with a sample and a pose. -/
def aiding (x : Sample) (p : PoseResult) (u : AidUnit) : State :=
  { solving (.aids { latch1 with sample := x } p ⟨[], [], []⟩ { defaultAid with prescale := 4 } defaultTable) with
    aid := u }

/-- Step 1 of spec/05 section 5.8: DIG, with DIG_BOOST asked for. -/
theorem test_stage_aids_dig :
    let s := run .stageAids (aiding { sample1 with seq := 50, timestamp := 10000, armHead := 31000 }
      { pose1 with omega := 200 } { resetAid with phase := .swingEmpty, timeIn := 1600, prescaler := 3 })
    s.aid.phase = .dig ∧ s.aid.timeIn = 0 ∧ s.aid.start = some ⟨50, 10000⟩ ∧
      (match s.solver.solve with
      | .finished _ _ _ a => decide (a.boost = some .place)
      | _ => false) = true := by decide +kernel

/-- Step 6 of spec/05 section 5.8: DUMP, the record, and the CYCLE event. -/
theorem test_stage_aids_dump :
    let s := run .stageAids (aiding { sample1 with seq := 154, timestamp := 12080 } { pose1 with bucket := -9500 }
      { resetAid with
        phase := .swingLoaded, start := some ⟨50, 10000⟩, elapsed := 2060, loaded := 6, averaged := 3, forceSum := 3600
        reachSum := 24000, prescaler := 3 })
    s.aid.phase = .dump ∧ s.aid.prescaler = 0 ∧ s.aid.averaged = 0 ∧
      s.aid.last.map (fun c => (c.duration, c.reach)) = some (2080, some 8000) := by decide +kernel

/-- R11, R12: the first completion enters RUNNING and writes the pending set; the pending sample begins the next solve. -/
theorem test_solve_completion :
    let s0 := solving (.finished latch1 pose1 ⟨[], [], []⟩ aids0)
    let s := run (.solveCompletion ⟨true, false, []⟩) { s0 with intake := { s0.intake with slot := some sample1 } }
    s.part = .running ∧ s.output.pending.seq = some 40 ∧ s.solver.pose.quality = .good ∧ s.intake.slot = none ∧
      s.solver.solve ≠ .idle := by decide +kernel

/-- A completion with four edits of the site's stop waiting, and an edit of the ceiling in CL's receive queue. -/
def editing : State :=
  let s := solving (.finished latch1 pose1 ⟨[], [], []⟩ aids0)
  setPort .cl { s.ports.cl with rx := [frameFor s.ports.cl .zoneEdit (.bytes [7, 1])] }
    { s with
      ports := { s.ports with sl := { s.ports.sl with reserved := 4 } }
      table := { table1 with
        queue := [.suspend, .resume, .suspend, .delete].map fun a => ⟨.sl, true, .zone 3 a⟩ } }

/-- R50: an edit taken while four still wait is BUSY; one taken after the first is applied joins the tail and is applied. -/
theorem test_edit_during_completion :
    let s := run (.solveCompletion ⟨true, false, [.take .cl]⟩) editing
    let t := run (.solveCompletion ⟨true, false, [.apply, .take .cl]⟩) editing
    (answered s .cl = some .busy ∧ zoneAt s 7 = .active .operator line ∧ zoneAt s 3 = .empty) ∧
      (answered t .cl = some .ok ∧ zoneAt t 7 = .empty ∧ zoneAt t 3 = .empty) := by decide +kernel

/-- Step 7 of spec/01 section 1.6: SAMPLE_LOSS with sequence 42, timestamp 5003 and limit 100. -/
theorem test_stale_timer_expiry :
    let s := run .staleTimerExpiry
      { ready with
        intake := { ready.intake with
          state := .fresh, stale := some ⟨100, 7⟩, restartMark := false, lastSolved := some ⟨42, 5003, 0, 0⟩ } }
    s.intake.state = .stale ∧ s.intake.restartMark = true ∧
      s.stamps.sampleLoss.held = some ⟨some 42, some 5003, 100⟩ ∧ s.solver.pose.quality = .lost := by decide +kernel

/-! ## The ladder -/

/-- R113: AUTO_IDLE placed with the idle rpm. -/
theorem test_idle_timer_expiry :
    let s := run .idleTimerExpiry { ready with ladder := { ready.ladder with idleTimer := some 5000 } }
    s.ladder.records.map (fun d => (d.source, d.rpm)) = [(.autoIdle, 800)] ∧ s.ladder.idleTimer = none := by
  decide +kernel

/-- R114: SHUTDOWN_ADVISE set and written. -/
theorem test_shutdown_timer_expiry :
    let s := run .shutdownTimerExpiry { ready with ladder := { ready.ladder with shutdownTimer := some 1 } }
    s.ladder.advise = true ∧ s.output.pending.advise = true := by decide +kernel

/-- Step 6 of spec/06 section 6.9: TEST removed, DIG_BOOST resumes with 9400, DEMAND_DROPPED to SL. -/
theorem test_duration_expiry :
    let s := run .durationExpiry laddered
    s.ladder.records.map (fun d => (d.source, d.duration)) = [(.digBoost, some 9400), (.regen, none), (.mode, none)] ∧
      newest s .sl = some (.demandDropped .test .expired 1200 2100) := by decide +kernel

/-- Step 4 of spec/06 section 6.9: REGEN marked in its place. -/
theorem test_wait_limit_expiry :
    let s := run (.waitLimitExpiry .regen) laddered
    s.ladder.records.map Demand.expired = [false, false, true, false] ∧ s.ladder.target = 1200 ∧ s.ladder.next = 2100 := by
  decide +kernel

/-- R119: POWER at level 4, 2000 rpm. -/
theorem test_set_mode :
    let s := run (.setMode .cl) (offering .cl .setMode (.setMode (some .power)) ready)
    s.ladder.records.map (fun d => (d.source, d.level, d.rpm)) = [(.mode, 4, 2000)] ∧ s.output.pending.target = 2000 := by
  decide +kernel

/-- R109: OFF with no MODE record. -/
theorem test_set_mode_off :
    answered (run (.setModeOff .cl) (offering .cl .setMode (.setMode (some .off)) ready)) .cl = some .notFound := by
  decide +kernel

/-- R120: TOUCH_IDLE at level 2 stands ahead of MODE and behind REGEN. -/
theorem test_touch_idle_on :
    let s := run (.touchIdleOn .cl) (offering .cl .touchIdle (.touchIdle (some true)) laddered)
    s.ladder.records.map Demand.source = [.test, .digBoost, .regen, .touchIdle, .mode] := by decide +kernel

/-- R109, R120. -/
theorem test_touch_idle_off :
    let s0 := run (.touchIdleOn .cl) (offering .cl .touchIdle (.touchIdle (some true)) ready)
    let s := run (.touchIdleOff .cl) (offering .cl .touchIdle (.touchIdle (some false)) s0)
    s.ladder.records = [] ∧ s.ladder.target = 800 := by decide +kernel

/-- Step 2 of spec/06 section 6.9, the answer's target and next: REGEN behind DIG_BOOST. -/
theorem test_regen_place :
    let l2 : Ladder := { ladder3 with records := [demand .digBoost 1 2100 (some 9600) none .internal 5 true,
      demand .mode 4 1600 none none (.link .cl) 4 false], counter := 6 }
    let s := run (.regenDemandPlace .ml)
      (offering .ml .regenDemand (.regenDemand (some .place) 1900 0 500) { ready with ladder := l2 })
    newest s .ml = some (.response 18 .ok (.demand (some ⟨.regen, 1, 1900, none, some 500⟩) 2100 1900)) ∧
      s.ladder.records.map Demand.stamp = [5, 6, 4] := by decide +kernel

/-- R109. -/
theorem test_regen_withdraw :
    let s := run (.regenDemandWithdraw .ml) (offering .ml .regenDemand (.regenDemand (some .withdraw) 0 0 0) laddered)
    s.ladder.records.map Demand.source = [.test, .digBoost, .mode] ∧ answered s .ml = some .ok := by decide +kernel

/-- R122: a TEST of duration 0 is refused; a duration below 1000 ms is taken as 1000. -/
theorem test_test_place :
    answered (run (.testDemandPlace .sl)
        (offering .sl .testDemand (.testDemand (some .test) (some .place) 1200 0 0) ready)) .sl = some .badField ∧
      (run (.testDemandPlace .sl) (offering .sl .testDemand (.testDemand (some .test) (some .place) 1200 5 0) ready)
        ).ladder.records.map Demand.duration = [some 1000] := by decide +kernel

/-- R109, R106: DIG_BOOST leads again. -/
theorem test_test_withdraw :
    let s := run (.testDemandWithdraw .sl)
      (offering .sl .testDemand (.testDemand (some .test) (some .withdraw) 0 0 0) laddered)
    s.ladder.target = 2100 ∧ s.ladder.records.map Demand.leading = [true, false, false] := by decide +kernel

/-- SET_LADDER's fields with the defaults. -/
def ladderRequest : LadderRequest :=
  { levels := defaultLadder.levels, orders := ⟨some .fifo, some .lifo, some .fifo, some .fifo, some .fifo, some .fifo,
      some .fifo, some .fifo⟩
    power := 2000, standard := 1800, economy := 1600, lift := 1400, idle := 600, travel := 1800, boost := 2100
    boostTime := 90 }

/-- R123, R104: level 1 made LIFO turns DIG_BOOST and REGEN round; idle and boost time are clamped. -/
theorem test_set_ladder :
    let s := run (.setLadder .sl) (offering .sl .setLadder (.ladder ladderRequest) laddered)
    s.ladder.records.map Demand.source = [.test, .regen, .digBoost, .mode] ∧ s.ladder.config.idle = 700 ∧
      s.ladder.config.boostTime = 60 ∧ s.store.save.isSome = true := by decide +kernel

/-- Step 5 of spec/06 section 6.9: the fleet cap lowers the next rpm to 1800. -/
theorem test_set_economy :
    let s := run (.setEconomy .sl) (offering .sl .setEconomy (.economy { defaultEconomy with fleetCap := 1800 }) laddered)
    s.ladder.target = 1200 ∧ s.ladder.next = 1800 ∧ s.output.pending.next = 1800 := by decide +kernel

/-! ## Output, cab view and store -/

/-- R164: the pending set copied, OUTPUT sent, the timer restarted. -/
theorem test_output_period_expiry :
    let s := run .outputPeriodExpiry { laddered with output := { laddered.output with periodTimer := some 3 } }
    s.output.active.target = 1200 ∧ s.output.periodTimer = some 20 ∧
      newest s .ml = some (.output ⟨none, ⟨1000, 1000, 1000, 1000, 1000, 1000⟩, 1200, 2100, true, false, .lost, .idle⟩) := by
  decide +kernel

/-- R166 and section 11.6: OUTPUT's 18 bytes after a reset: LOST and FALLBACK in byte 1, target 800 in bytes 14 and 15;
byte 0 without a sequence is log 31's choice. -/
theorem test_output_bytes :
    (outputBytes (outputMessage resetSet)).take 4 = [0, 26, 232, 3] ∧
      (outputBytes (outputMessage resetSet)).drop 14 = [32, 3, 0, 0] := by decide +kernel

/-- R169: the cab view goes to CL every 100 ms. -/
theorem test_cab_view_expiry :
    let s := run .cabViewExpiry { ready with output := { ready.output with cabTimer := some 0 } }
    s.output.cabTimer = some 100 ∧ newest s .cl = some (.cabView (cabView ready)) := by decide +kernel

/-- R167: a period above 100 is taken as 100, and the timer restarts with it. -/
theorem test_set_output_period :
    let s := run (.setOutputPeriod .sl) (offering .sl .setOutputPeriod (.outputPeriod 250) ready)
    s.output.period = 100 ∧ s.output.periodTimer = some 100 ∧ newest s .sl = some (.response 208 .ok (.period 100)) := by
  decide +kernel

/-- Step 1 of spec/11 section 11.5: a save of LADDER and the six accumulators. -/
theorem test_save_timer_expiry :
    let s := run .saveTimerExpiry { ready with store := { ready.store with dirty := [.ladder], timer := some 0 } }
    s.store.save.map (fun v => v.todo.map snapId) = some (.ladder :: allAccums.map RecordId.accumulator) ∧
      s.store.dirty = [] := by decide +kernel

/-- Step 7 of spec/11 section 11.5: the FUEL record mismatches on read-back. -/
theorem test_save_record_readback :
    let s := run (.saveRecordReadback true) (saving fuelSave)
    s.stamps.storeFault.held = some ⟨.readback, .accumulator .fuel⟩ ∧ s.store.image.accumulators.p2 = .bad := by
  decide +kernel

/-- Step 7 of spec/11 section 11.5: SAVE_DONE with 7 records and 1 mismatch; save-again starts save C, the restart
save. -/
theorem test_save_completion :
    let s0 := saving ⟨[], 7, 1, true, false⟩
    let s := run .saveCompletion { s0 with store := { s0.store with again := true, restartPending := true } }
    newest s .ml = some (.saveDone 7 1) ∧ s.store.save.map Save.isRestart = some true ∧ s.store.again = false := by
  decide +kernel

/-- Step 2 of spec/11 section 11.5: KEY_OFF while SAVING. -/
theorem test_key_off :
    let s := run (.keyOff .ml) (offering .ml .keyOff (.bytes []) (saving fuelSave))
    newest s .ml = some (.response 17 .ok (.keyOff true true)) ∧ s.store.keyOff = true := by decide +kernel

/-- Steps 5 and 6 of spec/11 section 11.5: RESTART is answered OK, and the next request BUSY. -/
theorem test_restart :
    let s := run (.restart .sl) (offering .sl .restart (.restart none) ready)
    answered s .sl = some .ok ∧ s.store.restartPending = true ∧
      answered (run (.accumSet .sl) (offering .sl .accumSet (.accumSet (some (.accum .fuel)) 9) s)) .sl = some .busy := by
  decide +kernel

/-- R191: an own node equal to its partner is refused. -/
theorem test_restart_clash :
    answered (run (.restart .sl) (offering .sl .restart (.restart (some ⟨⟨1, 1⟩, ⟨2, 3⟩, ⟨4, 5⟩⟩)) ready)) .sl =
      some .badField := by decide +kernel

/-! ## The table, the geometry and the solver's records -/

/-- A ZONE_EDIT of an action that carries no fields. -/
def zoneBytes (n action : Nat) : Payload := .bytes [toByte n, toByte action]

/-- The part with the worked table. -/
def tabled : State := { ready with table := table1 }

/-- Steps 2 and 3 of spec/03 section 3.3: a margin of 6000 is taken as 5000; SL writes with origin SITE. -/
theorem test_zone_write :
    zoneAt (run (.zoneEditWrite .cl)
        (offering .cl .zoneEdit (.bytes (zoneWriteBytes 7 { line with margin := 6000 })) tabled)) 7 = .active .operator line ∧
      zoneAt (run (.zoneEditWrite .sl) (offering .sl .zoneEdit (.bytes (zoneWriteBytes 8 wall)) tabled)) 8 =
        .active .site wall := by decide +kernel

/-- R45, R47: the SITE wall is PROTECTED from CL, and goes when SL deletes it. -/
theorem test_zone_delete :
    answered (run (.zoneEditDelete .cl) (offering .cl .zoneEdit (zoneBytes 9 1) tabled)) .cl = some .isProtected ∧
      zoneAt (run (.zoneEditDelete .sl) (offering .sl .zoneEdit (zoneBytes 9 1) tabled)) 9 = .empty := by decide +kernel

/-- R48; and steps 1 and 4 of spec/03 section 3.3: an edit during a solve is queued unchecked. -/
theorem test_zone_suspend :
    zoneAt (run (.zoneEditSuspend .cl) (offering .cl .zoneEdit (zoneBytes 7 2) tabled)) 7 = .suspended .operator line ∧
      (run (.zoneEditSuspend .cl) (offering .cl .zoneEdit (zoneBytes 9 2) (solving (.pose latch1)))).table.queue =
        [⟨.cl, true, .zone 9 .suspend⟩] := by decide +kernel

/-- R48: an ACTIVE entry cannot be resumed. -/
theorem test_zone_resume :
    answered (run (.zoneEditResume .cl) (offering .cl .zoneEdit (zoneBytes 7 3) tabled)) .cl = some .wrongState := by
  decide +kernel

/-- R52, R53. -/
theorem test_grade_set :
    (run (.setGradeSet .sl) (offering .sl .setGrade (.setGrade (some .set) { cut with tolerance := 900 }) ready)
      ).table.plane = .present .site { cut with tolerance := 500 } := by decide +kernel

/-- R53: no plane to clear. -/
theorem test_grade_clear :
    answered (run (.setGradeClear .cl) (offering .cl .setGrade (.setGrade (some .clear) cut) ready)) .cl =
      some .notFound := by decide +kernel

/-- R36: a length above 20000 is taken as 20000; a range with min above max is refused. -/
theorem test_set_geometry :
    (run (.setGeometry .sl) (offering .sl .setGeometry (.geometry { front with lb := 30000 }) ready)).solver.geometry =
        .present { front with lb := 20000 } ∧
      answered (run (.setGeometry .sl) (offering .sl .setGeometry (.geometry { front with armRange := ⟨1, 0⟩ }) ready)) .sl =
        some .badField := by decide +kernel

/-- R38: the stale limit is clamped to 40 to 500; an enable for GEOMETRY is refused. -/
theorem test_set_solver :
    (run (.setSolver .sl) (offering .sl .setSolver (.solver (some .up) noMarks false true 3000 10) ready)).solver.control =
        ⟨.up, noMarks, true, 2000, 40⟩ ∧
      answered (run (.setSolver .sl) (offering .sl .setSolver (.solver (some .up) noMarks true true 0 100) ready)) .sl =
        some .badField := by decide +kernel

/-- The part with sticky DISAGREE. -/
def sticky : State := { ready with solver := { ready.solver with sticky := { noMarks with disagree := true } } }

/-- R19. -/
theorem test_read_flags :
    newest (run (.readFlags .sl) (offering .sl .readFlags (.bytes []) sticky)) .sl =
      some (.response 130 .ok (.flags { noMarks with disagree := true } noCauses none)) := by decide +kernel

/-- R20. -/
theorem test_clear_flags :
    (run (.clearFlags .sl) (offering .sl .clearFlags (.clearFlags { noMarks with disagree := true } false) sticky)
      ).solver.sticky = noMarks := by decide +kernel

/-- R99: N must be 1, 4 or 16; a timeout of 200 s is taken as 120. -/
theorem test_set_aids_thresholds :
    answered (run (.setAidsThresholds .sl) (offering .sl .setAids (.aidThresholds { defaultAid with prescale := 2 }) ready)
        ) .sl = some .badField ∧
      (run (.setAidsThresholds .sl)
        (offering .sl .setAids (.aidThresholds { defaultAid with prescale := 16, timeout := 200 }) ready)).aid.record =
        { defaultAid with prescale := 16, timeout := 120 } := by decide +kernel

/-- R100: r values that do not strictly increase are refused. -/
theorem test_set_aids_table :
    answered (run (.setAidsTable .sl)
        (offering .sl .setAids (.aidTable { defaultTable with p1 := defaultTable.p0 }) ready)) .sl = some .badField ∧
      answered (run (.setAidsTable .sl) (offering .sl .setAids (.aidTable defaultTable) ready)) .sl = some .ok := by
  decide +kernel

/-! ## Items, ring, accumulators and stamps -/

/-- R146. -/
theorem test_ack_item :
    let s := run (.ackItem .cl) (offering .cl .ackItem (.item 5) (withItem ⟨.due, some oil, some 45100, none⟩))
    itemAt s 5 = ⟨.due, some { oil with acknowledged := true }, none, none⟩ := by decide +kernel

/-- R148: warn_ahead above the interval is taken as the interval, and the state is then WARN. -/
theorem test_item_define :
    let s := run (.itemDefine .sl)
      (offering .sl .itemDefine (.itemDefine 5 (some .fuel) (some .critical) 10 20 0 5) ready)
    itemAt s 5 = ⟨.warn, some ⟨.fuel, .critical, 10, 10, 1, 5, 0, false⟩, none, none⟩ := by decide +kernel

/-- R147: the baseline moves to the basis value, and the RESET notice reaches both readers. -/
theorem test_service_done :
    let s0 := withItem ⟨.due, some oil, some 45100, none⟩
    let s := run (.serviceDone .sl)
      (offering .sl .serviceDone (.item 5) { s0 with duty := { s0.duty with handed := { s0.duty.handed with p0 := 45050 } } })
    itemAt s 5 = ⟨.dormant, some { oil with baseline := 45050 }, none, some 0⟩ ∧ s.ring.cab.unread = 1 ∧
      s.ring.service.unread = 1 := by decide +kernel

/-- R149: an item with no notice in the ring is EMPTY at once, and RETIRE_DONE follows its answer. -/
theorem test_item_retire :
    let s := run (.itemRetire .sl) (offering .sl .itemRetire (.item 5) (withItem ⟨.dormant, some oil, none, none⟩))
    itemAt s 5 = emptyItem ∧ newest s .sl = some (.retireDone 5) := by decide +kernel

/-- Spec/08 section 8.2: the RISE to WARN at basis value 44800 and to DUE at 45000. -/
theorem test_item_rises :
    (itemAt (reexamineItem .engineTime 44800 (withItem ⟨.dormant, some oil, none, none⟩) 5) 5).state = .warn ∧
      itemAt (reexamineItem .engineTime 45000 (withItem ⟨.warn, some oil, none, none⟩) 5) 5 =
        ⟨.due, some oil, some 45100, some 0⟩ := by decide +kernel

/-- A ring with the put index at 10 and the counts of spec/08 section 8.6. -/
def ring10 (cab service : Nat) : Ring :=
  { slots := (List.range 32).map fun p =>
      if (10 + 32 - p - 1) % 32 < max cab service then some ⟨1, .rise, .warn, p, .advisory⟩ else none
    put := 10, cab := ⟨(42 - cab) % 32, cab, false, 0, true⟩, service := ⟨(42 - service) % 32, service, false, 0, true⟩ }

/-- Spec/08 section 8.6, first three rows: who loses a notice on a full ring. -/
theorem test_full_ring :
    let put := fun cab service => (produceNotice ⟨2, .rise, .due, 0, .advisory⟩ { ready with ring := ring10 cab service }).ring
    ((put 32 7).cab.get, (put 32 7).cab.unread, (put 32 7).service.get, (put 32 7).service.unread, (put 32 7).put,
        (put 32 7).cab.lost) = (11, 32, 3, 8, 11, true) ∧
      put 12 32 = { ring10 12 32 with service := { (ring10 12 32).service with lost := true } } ∧
      (put 32 32).put = 10 := by decide +kernel

/-- R156: four of the five unread notices. -/
theorem test_ring_read :
    (match newest (run (.ringRead .cl) (offering .cl .ringRead (.bytes []) { ready with ring := ring10 5 20 })) .cl with
    | some (.response 96 .ok (.ringRead 5 false ns)) =>
      decide (ns.map PlacedNotice.position = [5, 6, 7, 8])
    | _ => false) = true := by decide +kernel

/-- Spec/08 section 8.6, fourth row: the service advance to position 25 releases 22 to 25. -/
theorem test_ring_advance :
    let s := run (.ringAdvance .sl) (offering .sl .ringAdvance (.ringAdvance 25) { ready with ring := ring10 5 20 })
    s.ring.service.get = 26 ∧ s.ring.service.unread = 16 ∧ [21, 22, 25, 26].map (fun p => (s.ring.slots.getD p none).isSome) =
      [false, false, false, true] := by decide +kernel

/-- R159: the flag before the clear, and a watermark above 32 taken as 32. -/
theorem test_ring_clear_lost :
    let g := { ring10 5 20 with cab := { (ring10 5 20).cab with lost := true } }
    let s := run (.ringClearLost .cl) (offering .cl .ringClearLost (.ringClearLost (some 40)) { ready with ring := g })
    newest s .cl = some (.response 98 .ok (.ringLost true 5 32)) ∧ s.ring.cab.lost = false ∧ s.ring.cab.armed = true := by
  decide +kernel

/-- Step 1 of spec/10 section 10.4. -/
theorem test_stamp_read :
    let r : LateBrakingStamp := ⟨9, .cw, -5000, 3453, 1820, 126⟩
    let s := run (.stampRead .cl) (offering .cl .stampRead (.stampRead (some .lateBraking))
      { ready with stamps := { ready.stamps with lateBraking := ⟨some r, true, false⟩ } })
    newest s .cl = some (.response 112 .ok (.stamp .lateBraking (some (.lateBraking r)) true)) ∧
      s.stamps.lateBraking = ⟨none, false, true⟩ := by decide +kernel

/-- The part with 500 in FUEL, marked LOST. -/
def fuelled : State := { ready with duty := { ready.duty with values := accSet ready.duty.values .fuel ⟨500, true⟩ } }

/-- R138: the one value above 0. -/
theorem test_accum_read :
    newest (run (.accumRead .sl) (offering .sl .accumRead (.bytes []) fuelled)) .sl =
      some (.response 192 .ok (.accumRead ⟨false, false, true, false, false, false⟩
        ⟨false, false, true, false, false, false⟩ 6000 [500])) := by decide +kernel

/-- R136: a lower value is refused; a higher one clears the LOST mark. -/
theorem test_accum_set :
    answered (run (.accumSet .sl) (offering .sl .accumSet (.accumSet (some (.accum .fuel)) 499) fuelled)) .sl =
        some .badField ∧
      (run (.accumSet .sl) (offering .sl .accumSet (.accumSet (some (.accum .fuel)) 20000) fuelled)).duty.values.p2 =
        ⟨20000, false⟩ := by decide +kernel

/-- R137. -/
theorem test_accum_set_rated_fuel :
    (run (.accumSetRatedFuel .sl) (offering .sl .accumSet (.accumSet (some .ratedFuel) 20000) ready)).duty.ratedFuel =
      10000 := by decide +kernel

/-- One millisecond on an empty queue (log 2). -/
theorem test_idle_step :
    (match step { ready with output := { ready.output with periodTimer := some 20 } } with
    | .next s => decide (s.output.periodTimer = some 19)
    | _ => false) = true := by decide +kernel

/-! ## WellFormed refuses -/

theorem test_wf_bytes : Instr.wf (.frameReceived .ml ⟨.extended 0, .bytes (List.replicate 65 0)⟩) = false := by decide +kernel

theorem test_wf_geometry :
    Geometry.wf { front with boomRange := ⟨-32769, 0⟩ } = false ∧ Geometry.wf { front with armRange := ⟨0, 32768⟩ } = false ∧
      Geometry.wf { front with bucketRange := ⟨-32769, 0⟩ } = false ∧
      Geometry.wf { front with pitchRange := ⟨0, 32768⟩ } = false := by decide +kernel

theorem test_wf_plane : PlaneBody.wf { cut with elevation := 32768 } = false := by decide +kernel

theorem test_wf_aid :
    AidRecord.wf { defaultAid with curl := 32768 } = false ∧ AidRecord.wf { defaultAid with dump := -32769 } = false := by
  decide +kernel

theorem test_wf_point : PayloadPoint.wf ⟨32768, 0, 0⟩ = false ∧ PayloadPoint.wf ⟨0, -32769, 0⟩ = false := by decide +kernel

theorem test_wf_table :
    (tableWf { defaultTable with p0 := ⟨32768, 0, 0⟩ } || tableWf { defaultTable with p1 := ⟨32768, 0, 0⟩ } ||
      tableWf { defaultTable with p2 := ⟨32768, 0, 0⟩ } || tableWf { defaultTable with p3 := ⟨32768, 0, 0⟩ } ||
      tableWf { defaultTable with p4 := ⟨32768, 0, 0⟩ } || tableWf { defaultTable with p5 := ⟨32768, 0, 0⟩ } ||
      tableWf { defaultTable with p6 := ⟨32768, 0, 0⟩ } || tableWf { defaultTable with p7 := ⟨32768, 0, 0⟩ }) = false := by
  decide +kernel

theorem test_wf_payload :
    Payload.wf (.setGrade (some .set) { cut with elevation := 32768 }) = false ∧
      Payload.wf (.geometry { front with armRange := ⟨0, 32768⟩ }) = false ∧
      Payload.wf (.aidThresholds { defaultAid with curl := 32768 }) = false ∧
      Payload.wf (.aidTable { defaultTable with p0 := ⟨32768, 0, 0⟩ }) = false := by decide +kernel

/-! ## Witnesses: requests offered -/

theorem identCode_makeIdent (r : Request) (a b : Node) : identCode (makeIdent 3 (requestCode r) a b) = requestCode r := by
  have := a.isLt
  have := b.isLt
  cases r <;> simp [identCode, makeIdent, requestCode] <;> omega

/-- A request that waits on an ACTIVE port with a free place and passes the checks is offered. -/
theorem offered_of (l : Link) (r : Request) (d : Payload) (s : State)
    (h : s.part ≠ .loading ∧ (portOf s l).state = .active ∧ hasPlace (portOf s l) = true ∧
      s.store.restartPending = false ∧ permitted r l = true ∧ longEnough r d = true) :
    Offered (offering l r d s) l r d := by
  obtain ⟨hp, ha, hs, hr, hq, hl⟩ := h
  refine ⟨?_, ?_, hq, hl, frameFor (portOf s l) r d, ⟨?_, ?_, ?_⟩, rfl, _, rfl, identCode_makeIdent r _ _⟩
  · simpa [offering, hasPlace] using hs
  · simpa [offering] using hr
  · simpa [offering] using hp
  · simpa [offering] using ha
  · simp [offering]

/-- A frame that waits on an ACTIVE port stands at its head. -/
theorem atHead_of (l : Link) (f : RxFrame) (s : State) (h : s.part ≠ .loading ∧ (portOf s l).state = .active) :
    AtHead (setPort l { portOf s l with rx := [f] } s) l f :=
  ⟨by simpa using h.1, by simpa using h.2, by simp⟩

/-- Every request is offered on each link it is permitted on, with data of its form. -/
theorem witness_Offered (l : Link) (r : Request) (d : Payload) (h : permitted r l = true ∧ longEnough r d = true) :
    Offered (offering l r d ready) l r d ∧ Offered (offering l r d laddered) l r d ∧
      Offered (offering l r d tabled) l r d ∧ Offered (offering l r d (solving (.pose latch1))) l r d := by
  refine ⟨offered_of _ _ _ _ ⟨by decide, ?_, ?_, rfl, h⟩, offered_of _ _ _ _ ⟨by decide, ?_, ?_, rfl, h⟩,
    offered_of _ _ _ _ ⟨by decide, ?_, ?_, rfl, h⟩, offered_of _ _ _ _ ⟨by decide, ?_, ?_, rfl, h⟩⟩ <;>
    cases l <;> decide

/-! ## Witnesses: steps, reset and load -/

theorem witness_StepRunsFrontCommand : ({ ready with pending := [.keyOff .ml] } : State).pending = .keyOff .ml :: [] := rfl

theorem witness_IdleStepPassesOneMillisecond : ready.pending = [] := rfl

theorem witness_PowerOnResetEntersLoading :
    nextWrite ready.store = none ∧ nextWrite (saving fuelSave).store = some (.accumulator .fuel ⟨7, false⟩) := ⟨rfl, rfl⟩

/-- A load with a node record, one with a failing one. -/
def loadNodes (n : Stored NodesRecord) : State := { State.reset with store := resetStore { blankImage with nodes := n } }

theorem witness_LoadExaminesNextRecord :
    State.reset.part = .loading ∧ imageOrder[0]? = some .nodes ∧ imageOrder[1]? = some .geometry ∧
      imageOrder[72]? = some .outputPeriod ∧ (loadNodes (.good defaultNodes)).store.image.nodes = .good defaultNodes ∧
      (loadNodes .bad).store.image.nodes = .bad ∧ State.reset.store.image.nodes = .missing ∧
      defaultNodes = ⟨⟨40, 10⟩, ⟨40, 20⟩, ⟨40, 30⟩⟩ := by decide +kernel

/-- An image with every outcome of a record at the ends of its tables. -/
def imageMix : Image :=
  { blankImage with
    nodes := .bad, geometry := .bad, solver := .good defaultControl
    zones := (((blankImage.zones.set 0 (.good (some ⟨true, railway⟩))).set 1 (.good none)).set 30
      (.good (some ⟨false, line⟩))).set 31 .bad
    grade := .bad, aid := .good defaultAid, payloadTable := .bad, ladder := .good defaultLadder, economy := .bad
    duty := .good 6000, accumulators := ⟨.good ⟨9, false⟩, .bad, .missing, .missing, .missing, .missing⟩
    items := ((blankImage.items.set 0 .bad).set 22 (.good (some { oil with basis := .loadTime }))).set 23 (.good (some oil))
    watermark := .good ⟨4, 32⟩, outputPeriod := .good 10 }

/-- The load of that image at its end. -/
def loadedMix : State := { State.reset with examined := 73, store := resetStore imageMix }

theorem witness_LoadCompletionFills :
    (loadedMix.part = .loading ∧ 73 ≤ loadedMix.examined ∧ loadedMix.store.image.zones.length = 32 ∧
      loadedMix.store.image.items.length = 24) ∧
      (loaded9.part = .loading ∧ 73 ≤ loaded9.examined ∧ loaded9.store.image.zones.length = 32 ∧
        loaded9.store.image.items.length = 24) ∧
      [0, 1, 2, 30, 31].map (fun i => imageMix.zones.getD i .missing) =
        [.good (some ⟨true, railway⟩), .good none, .missing, .good (some ⟨false, line⟩), .bad] ∧
      [0, 1, 23].map (fun k => imageMix.items.getD k .missing) = [.bad, .missing, .good (some oil)] := by decide +kernel

/-- R16: a range of 100 to 200 saturates the last good value 0 to 100, one of -200 to -100 to -100. -/
theorem test_last_good_at_load :
    let g := { front with boomRange := ⟨100, 200⟩, armRange := ⟨-200, -100⟩, bucketRange := ⟨-5, 5⟩ }
    (run .loadCompletion
      { State.reset with examined := 73, store := resetStore { blankImage with geometry := .good g } }).solver.good =
      ⟨100, -100, 0, 0, 0⟩ := by decide +kernel

/-- R141, R145, R151: item 0 lost and item 22 on a LOST basis each produce a FAULT notice, and the SERVICE request stands. -/
theorem test_fault_notices :
    let s := run .loadCompletion loadedMix
    s.ring.slots.take 3 = [some ⟨0, .fault, .faulted, 0, .critical⟩, some ⟨22, .fault, .faulted, 0, .advisory⟩, none] ∧
      (itemAt s 22).lastNotice = some 1 ∧ s.ladder.service = true ∧ s.ladder.target = formTarget s.ladder := by
  decide +kernel

/-! ## Witnesses: links -/

/-- A frame meant for another node. -/
def frameElse : RxFrame := ⟨.extended (makeIdent 3 16 41 10), .bytes []⟩

theorem witness_LinksQueueAndSendFrames :
    ready.part ≠ .loading ∧ (portOf ready .ml).state = .active ∧
      identDest (makeIdent 3 (requestCode .keyOff) 40 10) = (portOf ready .ml).nodes.own ∧
      identSource (makeIdent 3 (requestCode .keyOff) 40 10) = (portOf ready .ml).nodes.partner ∧
      identDest (makeIdent 3 16 41 10) ≠ (portOf ready .ml).nodes.own ∧ State.reset.part = .loading ∧
      State.reset.examined = 0 ∧
      (portOf (setPort .ml { ready.ports.ml with rx := List.replicate 7 frameMl } ready) .ml).rx.length = 7 ∧
      (portOf (setPort .ml { ready.ports.ml with state := .busOff } ready) .ml).state = .busOff := by decide +kernel

/-- An OUTPUT that waits on a port. -/
def waitingOutput : TxFrame := frameOf ready.ports.ml (.output (outputMessage resetSet))

/-- A port whose 8 places hold one OUTPUT among RETIRE_DONEs, or RETIRE_DONEs alone. -/
def crowded (periodic : Bool) : State :=
  let f := frameOf ready.ports.ml (.retireDone 1)
  setPort .ml
    { ready.ports.ml with
      tx := f :: (if periodic then waitingOutput else f) :: List.replicate 5 f, reserved := 1 } ready

/-- R182: a notice takes the OUTPUT's place, is discarded where none waits, and enters a free place. -/
theorem test_notice_places :
    (portOf (sendNotice .ml (.saveDone 7 0) (crowded true)) .ml).tx.map TxFrame.body =
        List.replicate 6 (.retireDone 1) ++ [.saveDone 7 0] ∧
      sendNotice .ml (.saveDone 7 0) (crowded false) = crowded false ∧
      newest (sendNotice .ml (.saveDone 7 0) ready) .ml = some (.saveDone 7 0) := by decide +kernel

theorem witness_LinksQueueAndSendFrames_notice :
    (portOf (crowded true) .ml).state = .active ∧
      8 ≤ (portOf (crowded true) .ml).tx.length + (portOf (crowded true) .ml).reserved ∧
      (portOf (crowded true) .ml).tx[1]? = some waitingOutput ∧
      waitingOutput.body = .output (outputMessage resetSet) ∧
      (portOf (crowded false) .ml).tx = List.replicate 7 (frameOf ready.ports.ml (.retireDone 1)) ∧
      (portOf ready .ml).tx.length + (portOf ready .ml).reserved < 8 := by decide +kernel

theorem witness_LinkRestartLosesAnswersOnly :
    (portOf ready .sl).state = .active ∧ (portOf (run (.busOff .sl) ready) .sl).state = .busOff := by decide +kernel

/-- A port without a free place. -/
def fullPort : Port := { ready.ports.cl with reserved := 8 }

theorem witness_PortChecksRefuseInOrder :
    AtHead (setPort .cl { fullPort with rx := [frameMl] } ready) .cl frameMl ∧
      hasPlace (portOf (setPort .cl { fullPort with rx := [frameMl] } ready) .cl) = false ∧
      AtHead (setPort .ml { ready.ports.ml with rx := [frameElse] } ready) .ml frameElse ∧
      requestOf (frameCode frameMl) = some .keyOff ∧ requestOf (frameCode ⟨.extended (makeIdent 3 19 40 20), .bytes []⟩) = none ∧
      permitted .keyOff .cl = false ∧ permitted .keyOff .ml = true ∧
      longEnough .zoneEdit (.bytes [0]) = false ∧ longEnough .zoneEdit (.bytes (List.replicate 11 0)) = false ∧
      (run (.restart .sl) (offering .sl .restart (.restart none) ready)).store.restartPending = true :=
  ⟨atHead_of .cl frameMl (setPort .cl fullPort ready) (by decide), by decide +kernel,
    atHead_of .ml frameElse ready (by decide), by decide +kernel⟩

/-! ## Witnesses: samples and stage POSE -/

/-- SAMPLE's frame on ML. -/
def sampleFrame (b : List Byte) : RxFrame := frameFor ready.ports.ml .sample (.bytes b)

theorem witness_SampleBeginsSolve (b : List Byte) :
    AtHead (setPort .ml { ready.ports.ml with rx := [sampleFrame b] } ready) .ml (sampleFrame b) ∧
      IsRequest (sampleFrame b) .sample (.bytes b) :=
  ⟨atHead_of .ml _ ready (by decide), rfl, _, rfl, identCode_makeIdent .sample _ _⟩

theorem witness_SampleBeginsSolve_clauses :
    (List.replicate 33 (0 : Byte)).length < 34 ∧ readSample (sampleBytes sample1) = some sample1 ∧
      ready.intake.lastTaken ≠ some sample1.seq ∧ ready.solver.solve = .idle ∧ (solving (.pose latch1)).solver.solve ≠ .idle ∧
      ({ ready.intake with lastTaken := some 40 } : Intake).lastTaken = some sample1.seq ∧
      hasPlace (portOf ready .cl) = true := by decide +kernel

/-- A sample with its fields at their ends. -/
def sampleEnd : Sample :=
  { sample1 with
    seq := 255, timestamp := 65535, boomPrimary := -32768, boomSecondary := 32767, slew := 65535, boomHead := 65000
    engine := 65535, fuel := 10000, coolant := -40, oil := 150 }

theorem witness_FrameLayoutsRoundTrip :
    SampleOk sampleEnd ∧ ZoneFits ⟨.sectorStop, 65535, 0, false, -32768, 65535⟩ ∧
      ((0 : Int) - 65535) % 65536 ≠ 0 ∧ ZoneFits ⟨.floor, 7, 7, true, 32767, 0⟩ := by
  unfold SampleOk ZoneFits
  decide +kernel

theorem witness_StagePoseHoldsResults : (solving (.pose latch1)).solver.solve = .pose latch1 := rfl

/-- A latch with another timestamp. -/
def latchAt (t : Nat) : Latch := { latch1 with sample := { sample1 with timestamp := t } }

/-- Intervals 0, 100 (the stale limit), 101, and one across the wrap. -/
theorem witness_SlewSpeedFollowsChange :
    latch1.restart = false ∧ latch1.last = some ⟨39, 4980, 11818, 0⟩ ∧ latch1.sample.valid.slew = true ∧
      [4980, 5080, 5081, 4979].map (fun t => ((latchAt t).sample.timestamp + 65536 - 4980 % 65536) % 65536) =
        [0, 100, 101, 65535] ∧ latch1.control.staleLimit = 100 ∧
      |Int.tdiv ((182 : Int) * 1000) (20 : Nat)| ≤ 2 * (geometryFields latch1.geometry).ratedSlew ∧
      2 * (geometryFields latch1.geometry).ratedSlew < |Int.tdiv ((1000 : Int) * 1000) (20 : Nat)| ∧
      (geometryFields latch1.geometry).ratedSlew ≤ 20000 := by decide +kernel

theorem witness_PointsAreRunningSums : latch1.geometry = .present front := rfl

/-! ## Witnesses: the envelope -/

/-- The worked evaluation's input. -/
def input1 : EvalInput := evalInput latch1 pose1 points1

/-- Entry 9 alone gives SLEW_CW its least contribution; nothing contributes to BOOM_UP. -/
theorem witness_EvaluationTakesLeastContribution :
    (∀ n ≤ 32, contribution input1 table1 n .boomUp = none) ∧ contribution input1 table1 9 .slewCw = some 603 ∧
      ∀ k ≤ 32, ∀ y, contribution input1 table1 k .slewCw = some y → 603 < y ∨ 603 = y ∧ 9 ≤ k := by
  have h : ∀ k < 33, contribution input1 table1 k .boomUp = none ∧
      ∀ y ∈ contribution input1 table1 k .slewCw, 603 < y ∨ 603 = y ∧ 9 ≤ k := by decide +kernel
  exact ⟨fun n hn => (h n (by omega)).1, by decide +kernel, fun k hk y hy => (h k (by omega)).2 y hy⟩

/-- The worked table with a FAULTED zone. -/
def table2 : EnvTable := { table1 with zones := table1.zones.set 31 .faulted, plane := .faulted }

theorem witness_EntriesContributeByKind :
    entryView table2 0 = .idle ∧ entryView table2 31 = .faulted ∧ entryView table2 32 = .faulted ∧
      entryView table2 3 = .active railway ∧ entryView table2 9 = .active wall ∧
      [5999, 6000, 60000, 59999].map (insideSector railway) = [true, false, true, false] ∧
      insideSector wall 7999 = true ∧ insideSector wall 12000 = false ∧ 0 < wall.margin ∧
      limitDistance wall points1 < wall.margin ∧ line.margin ≤ limitDistance line points1 := by decide +kernel

/-- A front at its limit of the wall's, past it, and outside its sector. -/
theorem witness_EntriesContributeByKind_approaches :
    (line.kind ≠ .sectorStop ∧ line.margin ≤ limitDistance line points1) ∧ railway.kind = .sectorStop ∧
      insideSector railway 6000 = false ∧ wall.kind ≠ .sectorStop ∧ insideSector wall 8000 = false ∧
      limitDistance wall points1 < wall.margin ∧ line.kind = .ceiling ∧ wall.kind = .reachWall := by decide +kernel

theorem witness_StageEvaluateJudgesUsablePose :
    (solving (.evaluate latch1 pose1)).solver.solve = .evaluate latch1 pose1 ∧ UsablePose pose1 points1 ∧
      ready.evaluator.inside.length = 33 ∧ ready.evaluator.clear.length = 33 := by
  unfold UsablePose
  decide +kernel

theorem witness_StageEvaluateFallsBackWhenWithheld :
    (solving (.evaluate latch1 pose0)).solver.solve = .evaluate latch1 pose0 ∧ pose0.quality = .withheld := by decide +kernel

/-- The worked table with a SUSPENDED operator entry and a plane. -/
def tabled2 : State :=
  { ready with table := { table1 with zones := table1.zones.set 31 (.suspended .operator line), plane := .present .site cut } }

theorem witness_ZoneEditsFollowOriginAndState :
    tabled2.table.zones.length = 32 ∧ tabled2.evaluator.inside.length = 33 ∧ tabled2.evaluator.clear.length = 33 ∧
      [0, 7, 9, 31].map (zoneAt tabled2) =
        [.empty, .active .operator line, .active .site wall, .suspended .operator line] ∧ isSite (zoneAt tabled2 9) = true ∧
      isSite (zoneAt tabled2 7) = false := by decide +kernel

theorem witness_PlaneAndGeometryEditsApply :
    planeIsSite tabled2.table.plane = true ∧ planeIsSite ready.table.plane = false ∧ ready.table.plane = .absent ∧
      ready.evaluator.inside.length = 33 ∧ ready.evaluator.clear.length = 33 := by decide +kernel

/-- The bytes of a WRITE. -/
def writeBytes : List Byte := zoneWriteBytes 7 line

/-- Each of the seven edits, offered. -/
theorem witness_EditsApplyOrWait :
    EditForm (.zoneEditWrite .cl) .cl .zoneEdit (.bytes writeBytes) (.zone 7 (.write line)) ∧
      EditForm (.zoneEditDelete .sl) .sl .zoneEdit (.bytes [31, 1]) (.zone 31 .delete) ∧
      EditForm (.zoneEditSuspend .sl) .sl .zoneEdit (.bytes [0, 2]) (.zone 0 .suspend) ∧
      EditForm (.zoneEditResume .cl) .cl .zoneEdit (.bytes [0, 3]) (.zone 0 .resume) ∧
      EditForm (.setGradeSet .sl) .sl .setGrade (.setGrade (some .set) cut) (.grade (.set (clampPlane cut))) ∧
      EditForm (.setGradeClear .cl) .cl .setGrade (.setGrade (some .clear) cut) (.grade .clear) ∧
      EditForm (.setGeometry .sl) .sl .setGeometry (.geometry front) (.geometry (clampGeometry front)) ∧
      permitted .zoneEdit .cl = true ∧ permitted .zoneEdit .sl = true ∧ permitted .setGrade .cl = true ∧
      permitted .setGeometry .sl = true ∧ longEnough .zoneEdit (.bytes writeBytes) = true ∧
      longEnough .zoneEdit (.bytes [31, 1]) = true :=
  ⟨.write .cl writeBytes line (by decide +kernel), .delete .sl [31, 1] (by decide +kernel),
    .suspend .sl [0, 2] (by decide +kernel), .resume .cl [0, 3] (by decide +kernel), .set .sl cut, .clear .cl cut,
    .geometry .sl front (by decide +kernel), by decide +kernel⟩

/-- A solve in flight with four edits waiting; and edits that fail a taking check. -/
theorem witness_EditsApplyOrWait_clauses :
    4 ≤ ({ table1 with queue := List.replicate 4 ⟨.cl, true, .zone 7 .delete⟩ } : EnvTable).queue.length ∧
      (solving (.pose latch1)).solver.solve ≠ .idle ∧ (solving (.pose latch1)).table.queue.length < 4 ∧
      ready.solver.solve = .idle ∧ 32 ≤ byteAt [32, 1] 0 ∧ 4 ≤ byteAt [0, 4] 1 ∧
      4 ≤ byteAt (writeBytes.set 2 4) 2 ∧ wordAt (zoneWriteBytes 7 { line with stop := 21000 }) 4 =
        wordAt (zoneWriteBytes 7 { line with stop := 21000 }) 6 := by decide +kernel

theorem witness_EditsApplyOrWait_steps :
    AtHead (setPort .cl { ready.ports.cl with rx := [frameFor ready.ports.cl .zoneEdit (.bytes [7, 1])] } ready) .cl
        (frameFor ready.ports.cl .zoneEdit (.bytes [7, 1])) ∧
      requestOf (frameCode (frameFor ready.ports.cl .zoneEdit (.bytes [7, 1]))) = some .zoneEdit ∧
      (∃ q rest, editing.table.queue = q :: rest) :=
  ⟨atHead_of .cl _ ready (by decide), by decide +kernel, _, _, rfl⟩

/-! ## Witnesses: the aid unit and the completion -/

theorem witness_StageAids (x : Sample) (u : AidUnit) :
    (aiding x pose1 u).solver.solve =
        .aids { latch1 with sample := x } pose1 ⟨[], [], []⟩ { defaultAid with prescale := 4 } defaultTable ∧
      UsablePose pose1 points1 ∧ pose0.quality = .withheld ∧ 0 ≤ cut.tolerance ∧
      (aiding x pose0 u).solver.solve =
        .aids { latch1 with sample := x } pose0 ⟨[], [], []⟩ { defaultAid with prescale := 4 } defaultTable :=
  ⟨rfl, ⟨.inl rfl, rfl⟩, rfl, by decide, rfl⟩

/-- Each transition's condition at its boundary, and none. -/
theorem witness_CyclePhaseMovesOneStep :
    (|(999 : Int)| < defaultAid.omegaStill ∧ defaultAid.digPressure ≤ 18000) ∧
      (defaultAid.omegaSwing ≤ |(-3000 : Int)| ∧ defaultAid.curl ≤ 0) ∧ (-9103 : Int) < defaultAid.dump ∧
      ¬|(1000 : Int)| < defaultAid.omegaStill ∧ ¬(-9102 : Int) < defaultAid.dump ∧
      1000 * defaultAid.timeout ≤ (min 120000 (29980 + 20) : Nat) ∧ ((min 120000 (29979 + 20) : Nat) : Int) <
        1000 * defaultAid.timeout ∧ defaultAid.prescale ≤ 0 + 1 ∧ 2 + 1 < 4 := by decide +kernel

/-- A loaded solve past the settle count, and one before it; a reach below, inside and beyond the table. -/
theorem witness_CyclePhaseMovesOneStep_payload :
    strictlyRising defaultTable = true ∧ defaultAid.settle < ((3 + 1 : Nat) : Int) ∧ ((1 : Nat) : Int) ≤ defaultAid.settle ∧
      defaultTable.p0.reach ≤ 8000 ∧ (8000 : Int) < defaultTable.p7.reach := by decide +kernel

theorem witness_Completion :
    (solving (.finished latch1 pose1 ⟨[], [], []⟩ aids0)).solver.solve = .finished latch1 pose1 ⟨[], [], []⟩ aids0 ∧
      pose1.quality ≠ .lost ∧ pose0.quality = .withheld ∧ ready.table.queue = [] ∧
      demandOf .travel ready.ladder.records = none ∧ ready.ladder.service = false ∧ 0 < ready.ladder.config.boostTime ∧
      ready.intake.slot = none := by decide +kernel

theorem witness_Completion_clauses :
    (editing.table.queue ≠ [] ∧ editing.solver.solve = .finished latch1 pose1 ⟨[], [], []⟩ aids0) ∧
      ((⟨true, true, [.apply]⟩ : CompletionOrder).expiryBetween = true ∧
        ({ ready.output with periodTimer := some 0 } : Output).periodTimer = some 0) ∧
      (sample1.lever = false ∧ sample1.travel = false ∧ sample1.operator = true ∧ ready.aid.phase = .idle) ∧
      (¬ready.ladder.economy.t2 ≤ sample1.coolant ∧ ready.ladder.economy.warmThreshold ≤ sample1.coolant) ∧
      ({ aids0 with boost := some .place } : AidsResult).boost = some .place := by decide +kernel

theorem witness_StaleExpiryDeclaresSampleLoss :
    ({ ready.intake with stale := some ⟨100, 0⟩ } : Intake).stale = some ⟨100, 0⟩ ∧ ready.solver.solve = .idle := by
  decide +kernel

/-! ## Witnesses: the ladder and the accumulators -/

theorem records_laddered : RecordsInv laddered.ladder := by
  refine ⟨by decide +kernel, by decide +kernel, by decide +kernel, by decide +kernel, ?_⟩
  intro d hd
  cases hd
  decide +kernel

theorem witness_PlacedDemandJoinsLadder :
    PlaceForm laddered (.setMode .cl) .cl .setMode (.setMode (some .lift)) .mode 1400 none none ∧
      PlaceForm laddered (.touchIdleOn .cl) .cl .touchIdle (.touchIdle (some true)) .touchIdle 800 none none ∧
      PlaceForm laddered (.regenDemandPlace .ml) .ml .regenDemand (.regenDemand (some .place) 699 0 99) .regen 700 none
        (some 100) ∧
      PlaceForm laddered (.testDemandPlace .sl) .sl .testDemand (.testDemand (some .test) (some .place) 2101 1 0) .test 2100
        (some 1000) none ∧
      PlaceForm laddered (.testDemandPlace .sl) .sl .testDemand (.testDemand (some .spare) (some .place) 1000 600001 0) .spare
        1000 (some 600000) none ∧
      RecordsInv laddered.ladder ∧ laddered.ladder.counter < 4294967295 :=
  ⟨.mode .lift 1400 rfl, .touchIdle, .regen 699 0 99, .test 2101 1 0 (by decide), .spare 1000 600001 0, records_laddered,
    by decide⟩

theorem witness_WithdrawnDemandLeavesLadder :
    WithdrawForm (.setModeOff .cl) .cl .setMode (.setMode (some .off)) .mode ∧
      WithdrawForm (.touchIdleOff .cl) .cl .touchIdle (.touchIdle (some false)) .touchIdle ∧
      WithdrawForm (.regenDemandWithdraw .ml) .ml .regenDemand (.regenDemand (some .withdraw) 0 0 0) .regen ∧
      WithdrawForm (.testDemandWithdraw .sl) .sl .testDemand (.testDemand (some .test) (some .withdraw) 0 0 0) .test ∧
      (demandOf .mode laddered.ladder.records).isSome = true ∧ demandOf .touchIdle laddered.ladder.records = none :=
  ⟨.mode, .touchIdle, .regen 0 0 0, .test 0 0 0, by decide +kernel⟩

/-- The ladder with REGEN marked wait-expired behind TEST. -/
def waited : State :=
  { laddered with ladder := { ladder3 with
      records := [demand .test 0 1200 (some 2000) none (.link .sl) 7 true,
        { demand .regen 1 1900 none none (.link .ml) 6 false with expired := true },
        demand .mode 4 1600 none none (.link .cl) 4 false] } }

theorem witness_WithdrawnDemandLeavesLadder_marked :
    ∃ d marked rest, waited.ladder.records = d :: (marked ++ rest) ∧ marked.length = 1 ∧ rest.length = 1 ∧
      d.source = .test ∧ d.leading = true ∧ (∀ y ∈ marked, y.source ≠ .test ∧ y.leading = false ∧ y.expired = true) ∧
      ∀ y ∈ rest, y.source ≠ .test ∧ y.leading = false ∧ y.expired = false ∧ y.duration ≠ some 0 :=
  ⟨_, [{ demand .regen 1 1900 none none (.link .ml) 6 false with expired := true }],
    [demand .mode 4 1600 none none (.link .cl) 4 false], rfl, by decide +kernel⟩

/-- R106, R110: the withdrawal of TEST drops REGEN, which has waited too long, and tells ML. -/
theorem test_wait_expired_dropped :
    let s := run (.testDemandWithdraw .sl)
      (offering .sl .testDemand (.testDemand (some .test) (some .withdraw) 0 0 0) waited)
    s.ladder.records.map Demand.source = [.mode] ∧ s.ladder.target = 1600 ∧
      newest s .ml = some (.demandDropped .regen .waitExpired 1900 1600) := by decide +kernel

theorem witness_IdleAndShutdownTimersExpire :
    ready.ladder.idleTimer = none ∧ ready.ladder.shutdownTimer = none ∧
      RecordsInv ({ laddered.ladder with idleTimer := some 0 } : Ladder) ∧
      demandOf .autoIdle laddered.ladder.records = none :=
  ⟨rfl, rfl, records_laddered, by decide +kernel⟩

/-- The ladder with TEST leading and three behind it; a ladder whose first record has no duration. -/
theorem witness_DurationAndWaitLimitsExpire :
    (∃ d rest, laddered.ladder.records = d :: rest ∧ d.leading = true ∧ d.duration = some 2000 ∧ d.origin = .link .sl ∧
      ∀ x ∈ rest, x.leading = false ∧ x.expired = false ∧ x.duration ≠ some 0) ∧
      (∀ d ∈ ready.ladder.records.head?, d.leading = true → d.duration = none) ∧
      (demandOf .regen laddered.ladder.records).map Demand.wait = some (some 300) ∧
      (demandOf .mode laddered.ladder.records).map Demand.wait = some none :=
  ⟨⟨_, _, rfl, by decide +kernel⟩, by decide +kernel⟩

theorem witness_TargetKeepsUnderCeilings :
    (∃ d e ds, laddered.ladder.records = d :: e :: ds) ∧ ready.ladder.records = [] ∧ ready.ladder.records.length ≤ 1 ∧
      CeilingPresent { resetLadder with economy := { defaultEconomy with fleetCap := 700 } } 700 :=
  ⟨⟨_, _, _, rfl⟩, rfl, by decide, .inl (by decide +kernel)⟩

theorem witness_LadderAndEconomyAreReplaced :
    (takeOrders ladderRequest.orders).isSome = true ∧
      takeOrders { ladderRequest.orders with p7 := none } = none ∧
      laddered.ladder.records.Pairwise (fun x y => x.stamp ≠ y.stamp) ∧
      (permitted .setLadder .sl = true ∧ longEnough .setLadder (.ladder ladderRequest) = true) ∧
      permitted .setEconomy .sl = true ∧ longEnough .setEconomy (.economy defaultEconomy) = true := by decide +kernel

/-- A hand-off of 20 ms. -/
def handoff : DutyHandoff := ⟨20, true, 500, true, 10000, some (-32768), false, some (some 65535)⟩

theorem witness_Accumulators :
    (handoff.slewChange = none → handoff.interval = 0) ∧ resetDuty.engineMs < 1000 ∧ resetDuty.fuelRest < 36000 ∧
      0 ≤ handoff.fuel ∧ resetDuty.values.p0.value < 4294967295 ∧
      resetDuty.values.p0.value + (999 + handoff.interval) / 1000 ≤ 4294967295 ∧
      (500 : Int) ≤ handoff.engine ∧ ({ handoff with engine := 499 } : DutyHandoff).engine < 500 ∧
      resetDuty.values.p2.value + (handoff.fuel.toNat * handoff.interval + 35999) / 36000 ≤ 1099511627775 ∧
      resetDuty.values.p3.value + (32768 : Nat) ≤ 281474976710655 ∧
      resetDuty.values.p5.value + (999 + 65535) / 1000 ≤ 4294967295 := by decide +kernel

/-- Every accumulator at its greatest value, or one unit below it. -/
theorem witness_Accumulators_full :
    ([Accum.engineTime, .loadTime, .fuel, .slew, .cycles, .tonnes].map accumMax =
      [4294967295, 4294967295, 1099511627775, 281474976710655, 4294967295, 4294967295]) ∧
      accumMax .engineTime < 4294967295 + (999 + handoff.interval) / 1000 ∧
      accumMax .fuel < 1099511627775 + (handoff.fuel.toNat * handoff.interval + 35999) / 36000 ∧
      accumMax .tonnes < 4294967294 + (999 + 65535) / 1000 ∧
      0 < handoff.interval ∧ 0 < handoff.fuel.toNat * handoff.interval := by decide +kernel

/-- A hand-off that adds nothing: a restart solve's interval of 0 with a completed cycle of payload 0. -/
theorem witness_Accumulators_nothing :
    let h : DutyHandoff := { handoff with interval := 0, slewChange := none, completed := some (some 0) }
    h.interval = 0 ∧ h.completed = some (some 0) ∧ resetDuty.engineMs < 1000 ∧ resetDuty.loadMs < 1000 ∧
      resetDuty.loadQuarter < 4 ∧ resetDuty.fuelRest < 36000 := by decide +kernel

theorem witness_AccumulatorRequestsAct :
    (permitted .accumSet .sl = true ∧ longEnough .accumSet (.accumSet (some (.accum .fuel)) 500) = true) ∧
      min (accumMax .fuel) 499 < (accGet fuelled.duty.values .fuel).value ∧
      (accGet fuelled.duty.values .fuel).value ≤ min (accumMax .fuel) 500 ∧
      ready.ladder.service = serviceWanted ready.items ∧ 0 / unitsPer .tonnes = accGet ready.duty.handed .tonnes ∧
      (permitted .accumRead .sl = true ∧ longEnough .accumRead (.bytes []) = true) := by decide +kernel

/-! ## Witnesses: items, ring, output, stamps and store -/

/-- The ring's consistency in a form that can be decided. -/
theorem ringInv_of (s : State)
    (h : s.ring.put < 32 ∧ s.ring.slots.length = 32 ∧
      ((s.ring.cab.get < 32 ∧ s.ring.cab.unread ≤ 32 ∧ (s.ring.cab.get + s.ring.cab.unread) % 32 = s.ring.put) ∧
        (s.ring.service.get < 32 ∧ s.ring.service.unread ≤ 32 ∧
          (s.ring.service.get + s.ring.service.unread) % 32 = s.ring.put)) ∧
      (∀ p < 32, holdsNotice s.ring p = isHeld s.ring p) ∧ (∀ p < 32, (namers p s.items).length ≤ 1) ∧
      ∀ i ∈ s.items, (∀ p ∈ i.lastNotice, p < 32 ∧ isHeld s.ring p = true) ∧
        (i.state = .retiring → i.lastNotice.isSome = true) ∧ (i.state = .empty → i.lastNotice = none)) : RingInv s :=
  ⟨h.1, h.2.1, h.2.2.1.1, h.2.2.1.2, h.2.2.2.1, fun i hi p hp => (h.2.2.2.2.2 i hi).1 p hp, h.2.2.2.2.1,
    fun i hi => (h.2.2.2.2.2 i hi).2.1, fun i hi => (h.2.2.2.2.2 i hi).2.2⟩

/-- Item 5 DUE with its newest notice at position 9 of a ring with 5 and 20 unread. -/
def ringed : State := { withItem ⟨.due, some oil, some 45100, some 9⟩ with ring := ring10 5 20 }

/-- The same ring with both readers full. -/
def ringFull (cab service : Nat) : State := { ringed with ring := ring10 cab service }

theorem witness_RingInv : RingInv ringed ∧ RingInv (ringFull 32 31) ∧ RingInv (ringFull 32 32) ∧ RingInv ready := by
  refine ⟨ringInv_of _ ?_, ringInv_of _ ?_, ringInv_of _ ?_, ringInv_of _ ?_⟩ <;> decide +kernel

theorem witness_ItemsAreAcknowledgedAndDefined :
    (permitted .ackItem .cl = true ∧ longEnough .ackItem (.item 23) = true) ∧ ringed.items.length = 24 ∧
      (itemAt ringed 5).state = .due ∧ (itemAt ringed 5).fields = some oil ∧ oil.acknowledged = false ∧
      (itemAt ringed 23).state = .empty ∧ permitted .itemDefine .sl = true ∧
      longEnough .itemDefine (.itemDefine 23 (some .fuel) (some .critical) 1 1 1 0) = true := by decide +kernel

theorem witness_ItemsAreServicedAndRetired :
    (permitted .serviceDone .sl = true ∧ longEnough .serviceDone (.item 5) = true ∧ permitted .itemRetire .sl = true) ∧
      ringed.ring.service.unread < 32 ∧ (ringFull 32 32).ring.service.unread = 32 ∧
      (itemAt ringed 5).state ≠ .empty ∧ (itemAt ringed 5).state ≠ .retiring ∧ (itemAt ringed 5).lastNotice = some 9 ∧
      (itemAt (withItem ⟨.dormant, some oil, none, none⟩) 5).lastNotice = none ∧ RingInv ringed :=
  ⟨by decide, by decide +kernel, by decide +kernel, by decide +kernel, by decide +kernel, by decide +kernel,
    by decide +kernel, witness_RingInv.1⟩

/-- Basis values at which item 5's progress stands at the ends of its spans. -/
theorem witness_ItemsFollowProgress :
    RingInv ringed ∧ (itemAt ringed 5).fields = some oil ∧
      [44799, 44800, 45000, 45499, 45500].map (fun b => stateAt oil (b - oil.baseline)) =
        [.dormant, .warn, .due, .due, .overdue] ∧
      stateRank (itemAt ringed 5).state = some 2 ∧ (itemAt ringed 5).nextRepeat = some 45100 :=
  ⟨witness_RingInv.1, by decide +kernel, by decide +kernel, by decide +kernel, by decide +kernel⟩

/-- R152: a rise into OVERDUE that clears a set acknowledged marks the item's record dirty, which starts a save of it. -/
theorem test_rise_marks_dirty :
    let s := reexamineItem .engineTime 45500 (withItem ⟨.due, some { oil with acknowledged := true }, none, none⟩) 5
    (itemAt s 5).state = .overdue ∧
      s.store.save.map (fun v => v.todo.filter fun r => decide (snapId r = .item 5)) = some [.item 5 (some oil)] := by
  decide +kernel

/-- The last position of the unread span, and the first outside it. -/
theorem witness_RingReadersReadAndAdvance :
    RingInv ringed ∧ (permitted .ringAdvance .cl = true ∧ longEnough .ringAdvance (.ringAdvance 9) = true) ∧
      (9 + 32 - (readerOf ringed.ring .cab).get) % 32 < (readerOf ringed.ring .cab).unread ∧
      (readerOf ringed.ring .cab).unread ≤ (10 + 32 - (readerOf ringed.ring .cab).get) % 32 ∧
      permitted .ringClearLost .sl = true ∧ longEnough .ringClearLost (.ringClearLost (some 33)) = true :=
  ⟨witness_RingInv.1, by decide, by decide +kernel, by decide +kernel, by decide, by decide⟩

theorem witness_NoticesReachBothReaders :
    RingInv (ringFull 32 31) ∧ (ringFull 32 31).ring.service.unread < 32 ∧ (ringFull 32 31).ring.cab.unread = 32 ∧
      (ringFull 32 32).ring.service.unread = 32 ∧ 5 < ringed.items.length :=
  ⟨witness_RingInv.2.1, by decide +kernel, by decide +kernel, by decide +kernel, by decide +kernel⟩

/-- The readers armed with watermarks that the next notice reaches, and item 5 RETIRING at the cab's oldest notice. -/
def watched : State :=
  let g := ring10 32 20
  { withItem ⟨.retiring, none, none, some 10⟩ with
    ring := { g with
      cab := { g.cab with watermark := 32, armed := true }, service := { g.service with watermark := 21, armed := true } } }

/-- R150, R154, R160: the cab drop retires item 5, and both readers are told. -/
theorem test_watermarks :
    let s := produceNotice ⟨0, .rise, .due, 7, .advisory⟩ watched
    itemAt s 5 = emptyItem ∧ newest s .cl = some (.ringWatermark .cab 32 true) ∧
      (portOf s .sl).tx.map TxFrame.body = [.retireDone 5, .ringWatermark .service 21 false] := by decide +kernel

theorem witness_NoticesReachBothReaders_watched : RingInv watched := ringInv_of _ (by decide +kernel)

theorem witness_OutputAndCabViewGoOut :
    ({ ready.output with periodTimer := some 0, cabTimer := some 100 } : Output).periodTimer = some 0 ∧
      ready.output.periodTimer = none ∧ ready.output.cabTimer = none := by decide +kernel

theorem witness_OutputPeriodStatusAndIdentify :
    (permitted .setOutputPeriod .sl = true ∧ longEnough .setOutputPeriod (.outputPeriod 9) = true) ∧
      (permitted .statusQuery .ml = true ∧ longEnough .statusQuery (.bytes []) = true) ∧ permitted .identify .cl = true := by
  decide

theorem witness_StampsHoldFirstEventUntilRead :
    (emptySlot SampleLossStamp).held = none ∧ (raiseSlot (emptySlot SampleLossStamp) ⟨none, none, 100⟩).held ≠ none ∧
      (permitted .stampRead .cl = true ∧ longEnough .stampRead (.stampRead none) = true) := by decide +kernel

/-- A save that has written all its records, and the restart save. -/
theorem witness_SavesWriteSnapshots :
    ready.store.save = none ∧ (saving fuelSave).store.save = some fuelSave ∧
      fuelSave.todo = [.accumulator .fuel ⟨7, false⟩] ∧
      ({ fuelSave with todo := [], isRestart := true } : Save).todo = [] ∧
      ({ ready.store with timer := some 0 } : Store).timer = some 0 := by decide +kernel

/-- Every kind of entry that a snapshot tells apart. -/
theorem witness_SavesWriteSnapshots_snapshot :
    zoneAt tabled2 9 = .active .site wall ∧ zoneAt tabled2 31 = .suspended .operator line ∧
      zoneAt { tabled2 with table := { tabled2.table with zones := [.suspended .site wall] } } 0 = .suspended .site wall ∧
      tabled2.table.plane = .present .site cut ∧ ready.table.plane = .absent ∧
      (itemAt ringed 5).state = .due ∧ (itemAt ready 5).state = .empty ∧
      GeometryRecord.present front = .present front := by decide +kernel

theorem witness_KeyOffAndRestartTriggerSaves :
    (permitted .keyOff .ml = true ∧ longEnough .keyOff (.bytes []) = true) ∧
      (permitted .restart .sl = true ∧ longEnough .restart (.restart (some defaultNodes)) = true) ∧
      ¬(defaultNodes.ml.own = defaultNodes.ml.partner ∨ defaultNodes.cl.own = defaultNodes.cl.partner ∨
        defaultNodes.sl.own = defaultNodes.sl.partner) := by decide +kernel

theorem witness_SolverAndAidRecordsAreReplaced :
    (permitted .setSolver .sl = true ∧ longEnough .setSolver (.solver (some .down) noMarks false true 2001 39) = true) ∧
      (permitted .setAids .sl = true ∧ longEnough .setAids (.aidTable defaultTable) = true) ∧ defaultAid.wf = true ∧
      defaultAid.prescale = 1 ∧ tableWf defaultTable = true ∧ defaultTable.p0.reach < defaultTable.p1.reach := by
  decide +kernel

theorem witness_FlagRequestsActOrWait :
    FlagForm (.readFlags .sl) .readFlags (.bytes []) .read ∧
      FlagForm (.clearFlags .sl) .clearFlags (.clearFlags noMarks false) (.clear noMarks) ∧
      (permitted .readFlags .sl = true ∧ longEnough .readFlags (.bytes []) = true) ∧
      (solving (.pose latch1)).solver.waiting.length < 4 ∧
      4 ≤ ({ ready.solver with waiting := List.replicate 4 ⟨true, .read⟩ } : Solver).waiting.length :=
  ⟨.read _, .clear _, by decide, by decide +kernel, by decide +kernel⟩

/-! ## Witnesses: what every step keeps -/

/-- A command waits right after reset. -/
def begun : State := { State.reset with pending := [.loadRecordExamined] }

/-- The step it takes. -/
theorem begun_step : step begun = .next (run .loadRecordExamined { begun with pending := [] }) := rfl

theorem witness_StepKeepsShapesAndStamps : ShapeInv begun ∧ StampInv begun := by
  refine ⟨by unfold ShapeInv; decide +kernel, ?_⟩
  refine ⟨?_, ?_, ?_, ?_, ?_, ?_, ?_⟩ <;> intro _ <;> rfl

theorem witness_StepKeepsQueues : QueueInv begun := by
  refine ⟨fun l => ?_, by decide, by decide, fun _ => by decide +kernel⟩
  unfold PortInv owedOn
  cases l <;> decide +kernel

theorem witness_StepKeepsOutputInRange : OutputInv begun := by
  have scales : ∀ v : Six Int, (∀ a ∈ allActuators, 0 ≤ actGet v a ∧ actGet v a ≤ 1000) → AreScales v := by
    intro v h a
    exact h a (by cases a <;> decide)
  refine ⟨⟨⟨scales _ (by decide +kernel), by unfold IsScale; decide +kernel⟩, ?_, ?_, ?_, ?_⟩, scales _ (by decide +kernel),
    ⟨scales _ (by decide +kernel), by unfold IsRpm; decide +kernel, .inl (by decide +kernel)⟩,
    ⟨scales _ (by decide +kernel), by unfold IsRpm; decide +kernel, .inl (by decide +kernel)⟩⟩
  · intro g h; cases h
  · intro q h; cases h
  · intro g h; cases h
  · intro r h; cases h

theorem witness_StepKeepsLadder : LadderInv begun := by
  refine ⟨fun _ => by decide +kernel, ⟨by decide +kernel, by decide +kernel, by decide +kernel, by decide +kernel, ?_⟩,
    by decide +kernel⟩
  intro d hd
  cases hd

theorem witness_StepKeepsRing : RingInv begun := ringInv_of _ (by decide +kernel)

theorem witness_StepKeepsBoostWithdrawn : BoostInv begun := by
  refine ⟨.inr rfl, .inr ?_⟩
  intro h
  exact h rfl

theorem witness_SiteEntriesYieldToServiceOnly :
    exec .stagePose tabled2 = .next tabled2 ∧ resets .stagePose tabled2 = false ∧ isSite (zoneAt tabled2 9) = true ∧
      ¬serviceEdit (editsZone 9) .stagePose tabled2 ∧ planeIsSite tabled2.table.plane = true ∧
      ¬serviceEdit editsPlane .stagePose tabled2 :=
  ⟨rfl, rfl, by decide +kernel, fun h => h, by decide +kernel, fun h => h⟩

/-- A HELD slot meets another event of its kind. -/
theorem witness_TotalsAndHeldStampsEndure :
    let s := { saving fuelSave with stamps := { ready.stamps with storeFault := ⟨some ⟨.load, .zone 12⟩, false, false⟩ } }
    exec (.saveRecordReadback true) s = .next (run (.saveRecordReadback true) s) ∧
      resets (.saveRecordReadback true) s = false ∧ (∀ l, Instr.saveRecordReadback true ≠ .stampRead l) ∧
      slotRecord s.stamps .storeFault = some (.storeFault ⟨.load, .zone 12⟩) := by
  refine ⟨rfl, rfl, ?_, rfl⟩
  intro l h
  cases h

end Sys2Proof.Tests
end

section
/-! SUPPORT. Operations that are quiet at the queues: every port at most produces frames within its places, and the edit
queue, the flag wait list and the pending slot stay as they are. One lemma for each operation that the meanings share. -/

namespace Sys2Proof.Proofs

open Sys2Proof Sys2Proof.Machine Sys2Proof.Laws

/-! ## The relation -/

/-- A port that only sends, within the eight places of its transmit queue, and not at all in BUS_OFF (R182, R183). -/
structure SendsWithin (p q : Port) : Prop where
  only : OnlySends p q
  places : p.tx.length + p.reserved ≤ 8 → q.tx.length + q.reserved ≤ 8
  off : p.state = .busOff → q.tx = p.tx

/-- From `s` to `t` the ports only send within their places, nothing joins or leaves the edit queue, the flag wait list or
the pending slot, and a solve in flight stays in flight. -/
structure Quiet (s t : State) : Prop where
  ports : ∀ l, SendsWithin (portOf s l) (portOf t l)
  queue : t.table.queue = s.table.queue
  waiting : t.solver.waiting = s.solver.waiting
  solving : t.solver.solve = .idle → s.solver.solve = .idle
  slot : t.intake.slot = s.intake.slot

theorem SendsWithin.refl (p : Port) : SendsWithin p p := ⟨OnlySends.refl p, id, fun _ => rfl⟩

theorem SendsWithin.trans {p q r : Port} (h : SendsWithin p q) (k : SendsWithin q r) : SendsWithin p r where
  only := OnlySends.trans h.only k.only
  places := k.places ∘ h.places
  off ho := (k.off (h.only.1.trans ho)).trans (h.off ho)

theorem Quiet.trans {s t u : State} (h : Quiet s t) (k : Quiet t u) : Quiet s u where
  ports l := (h.ports l).trans (k.ports l)
  queue := k.queue.trans h.queue
  waiting := k.waiting.trans h.waiting
  solving := h.solving ∘ k.solving
  slot := k.slot.trans h.slot

/-- A change that leaves the ports and the queues alone is quiet. -/
theorem Quiet.of_ports {s t : State} (hp : t.ports = s.ports := by rfl)
    (hq : t.table.queue = s.table.queue := by rfl) (hw : t.solver.waiting = s.solver.waiting := by rfl)
    (hs : t.solver.solve = .idle → s.solver.solve = .idle := by exact id)
    (hi : t.intake.slot = s.intake.slot := by rfl) : Quiet s t :=
  ⟨fun l => by rw [portOf_congr hp l]; exact SendsWithin.refl _, hq, hw, hs, hi⟩

theorem Quiet.refl (s : State) : Quiet s s := .of_ports

/-- A quiet step stays quiet behind a change that leaves the ports and the queues alone. -/
theorem Quiet.behind {s t u : State} (k : Quiet t u) (hp : t.ports = s.ports := by rfl)
    (hq : t.table.queue = s.table.queue := by rfl) (hw : t.solver.waiting = s.solver.waiting := by rfl)
    (hs : t.solver.solve = .idle → s.solver.solve = .idle := by exact id)
    (hi : t.intake.slot = s.intake.slot := by rfl) : Quiet s u :=
  (Quiet.of_ports hp hq hw hs hi).trans k

/-- Quiet steps only send. -/
theorem Quiet.onlySend {s t : State} (h : Quiet s t) : AllOnlySend s t := fun l => (h.ports l).only

/-- A fold of quiet steps is quiet. -/
theorem Quiet.foldl {α : Type} {f : State → α → State} (h : ∀ s a, Quiet s (f s a)) (xs : List α) (s : State) :
    Quiet s (xs.foldl f s) := by
  induction xs generalizing s with
  | nil => exact .refl s
  | cons x xs ih => exact (h s x).trans (ih _)

/-! ## Frames sent -/

theorem offerNotice_sendsWithin (p : Port) (b : TxBody) : SendsWithin p (offerNotice p b) where
  only := offerNotice_onlySends p b
  places := offerNotice_places p b
  off ho := by simp [offerNotice, ho]

theorem offerPeriodic_sendsWithin (p : Port) (b : TxBody) : SendsWithin p (offerPeriodic p b) where
  only := offerPeriodic_onlySends p b
  places := offerPeriodic_places p b
  off ho := by simp [offerPeriodic, ho]

/-- A port that sends within its places, replaced alone, is quiet. -/
theorem quiet_setPort {l : Link} {p : Port} {s : State} (h : SendsWithin (portOf s l) p) : Quiet s (setPort l p s) where
  ports k := by
    by_cases hk : k = l
    · subst hk; rwa [portOf_setPort]
    · rw [portOf_setPort_ne l k p s hk]; exact .refl _
  queue := by simp
  waiting := by simp
  solving := by simp
  slot := by simp

theorem quiet_sendNotice (l : Link) (b : TxBody) (s : State) : Quiet s (sendNotice l b s) :=
  quiet_setPort (offerNotice_sendsWithin _ b)

theorem quiet_sendPeriodic (l : Link) (b : TxBody) (s : State) : Quiet s (sendPeriodic l b s) :=
  quiet_setPort (offerPeriodic_sendsWithin _ b)

/-! ## The store -/

theorem quiet_triggerSave (s : State) : Quiet s (triggerSave s) :=
  .of_ports (by simp) (by simp) (by simp) (by simp) (by simp)

theorem quiet_markDirty (r : RecordId) (s : State) : Quiet s (markDirty r s) :=
  .of_ports (by simp) (by simp) (by simp) (by simp) (by simp)

theorem quiet_elapse (ms : Nat) (s : State) : Quiet s (elapse ms s) := .of_ports

/-! ## The ladder and its notices -/

theorem quiet_retarget (L : Ladder) (s : State) : Quiet s (retarget L s) := .of_ports

theorem quiet_sendDropped (s : State) (d : Drop) : Quiet s (sendDropped s d) := by
  unfold sendDropped
  split
  · exact quiet_sendNotice _ _ s
  · exact .refl s

theorem quiet_ladderEvent (L : Ladder) (drops : List Drop) (s : State) : Quiet s (ladderEvent L drops s) :=
  (quiet_retarget _ s).trans (.foldl quiet_sendDropped _ _)

theorem quiet_syncService (s : State) : Quiet s (syncService s) := by
  obtain h | h := syncService_cases s <;> rw [h]
  · exact .refl s
  · exact quiet_retarget _ s

/-! ## The ring and the schedule -/

theorem quiet_releasePosition (s : State) (p : Nat) : Quiet s (releasePosition s p) :=
  (Quiet.foldl (fun t k => quiet_sendNotice .sl (.retireDone k) t) _ _).behind

theorem quiet_releaseFrom (before : Nat) (s : State) : Quiet s (releaseFrom before s) := .foldl quiet_releasePosition _ s

theorem quiet_dropCab (s : State) : Quiet s (dropCab s) :=
  (quiet_releaseFrom _ _).behind

theorem quiet_watermarkTest (r : Reader) (s : State) : Quiet s (watermarkTest r s) := by
  obtain h | ⟨_, _, h⟩ := watermarkTest_cases r s <;> rw [h]
  · exact .refl s
  · exact (quiet_sendNotice _ _ _).behind

theorem quiet_produceNotice (n : Notice) (s : State) : Quiet s (produceNotice n s) := by
  by_cases h : s.ring.service.unread < 32
  · rw [produceNotice_written n s h]
    have room : Quiet s (if 32 ≤ s.ring.cab.unread then dropCab s else s) := by
      split
      · exact quiet_dropCab s
      · exact .refl s
    have put : ∀ t, Quiet t (putNotice n t) := fun t => .of_ports
    exact ((room.trans (put _)).trans (quiet_watermarkTest .cab _)).trans (quiet_watermarkTest .service _)
  · rw [produceNotice_lost n s (by omega)]
    exact .of_ports

theorem quiet_riseItem (k : Nat) (f : ItemFields) (t : ItemState) (basis : Nat) (s : State) :
    Quiet s (riseItem k f t basis s) := by
  have h : Quiet s (produceNotice ⟨k, .rise, t, basis, f.severity⟩ { s with items := changeAt s.items k (risen f t basis) }) :=
    (quiet_produceNotice _ _).behind
  unfold riseItem
  dsimp only
  split
  · exact h.trans (quiet_markDirty _ _)
  · exact h

theorem quiet_repeatItem (k : Nat) (i : Item) (f : ItemFields) (basis : Nat) (s : State) :
    Quiet s (repeatItem k i f basis s) := by
  unfold repeatItem
  split
  · split
    · exact (quiet_produceNotice _ _).behind
    · exact .refl s
  · exact .refl s

theorem quiet_reexamineItem (a : Accum) (basis : Nat) (s : State) (k : Nat) : Quiet s (reexamineItem a basis s k) := by
  unfold reexamineItem
  dsimp only
  split
  · split
    · split
      · split
        · exact quiet_riseItem _ _ _ _ s
        · exact quiet_repeatItem _ _ _ _ s
      · exact .refl s
    · exact .refl s
  · exact .refl s

theorem quiet_handOnBasis (s : State) (a : Accum) : Quiet s (handOnBasis s a) := by
  unfold handOnBasis
  split
  · exact .refl s
  · exact (Quiet.foldl (quiet_reexamineItem _ _) _ _).behind

theorem quiet_handOnAll (s : State) : Quiet s (handOnAll s) := .foldl quiet_handOnBasis _ s

theorem quiet_announceFault (s : State) (k : Nat) : Quiet s (announceFault s k) := by
  unfold announceFault
  split
  · exact quiet_produceNotice _ s
  · exact .refl s

/-! ## The output set -/

theorem quiet_transferOutput (s : State) : Quiet s (transferOutput s) :=
  (quiet_sendPeriodic _ _ _).behind

theorem quiet_sendCabView (s : State) : Quiet s (sendCabView s) :=
  (quiet_sendPeriodic _ _ _).behind

/-! ## The solver, the evaluator and the aid unit -/

theorem quiet_sampleLoss (limit : Nat) (s : State) : Quiet s (sampleLoss limit s) :=
  (quiet_ladderEvent _ _ _).behind

/-- The hand-offs of R11 are quiet. -/
theorem quiet_handOffs (o : CompletionOrder) (l : Latch) (p : PoseResult) (e : EvalResult) (a : AidsResult) (s : State) :
    Quiet s (handOffs o l p e a s) := by
  have write : Quiet s (writeEvaluation l p (publishPose l p a s)) := .of_ports
  have between : ∀ t, Quiet t (expiryBetween o t) := by
    intro t
    unfold expiryBetween
    split
    · exact quiet_transferOutput t
    · exact .refl t
  have duty : ∀ t, Quiet t (dutyHandoff (dutyOf l p a) t) := fun t =>
    ((quiet_handOnAll _).trans (quiet_syncService _)).behind
  have hand : ∀ t, Quiet t (handOff o l p a t) := by
    intro t
    unfold handOff
    split
    · exact (quiet_ladderEvent _ _ t).trans (duty _)
    · exact (duty t).trans (quiet_ladderEvent _ _ _)
  have enter : ∀ t, Quiet t (enterRunning (raiseStamps l p e a t)) := by
    intro t
    unfold enterRunning
    split <;> exact .of_ports
  exact ((write.trans (between _)).trans (hand _)).trans (enter _)

end Sys2Proof.Proofs
end

section
/-! SUPPORT. The finish of a solve (R12): what the waiting flag requests and the edits leave alone, and what each leaves
behind. -/

namespace Sys2Proof.Proofs

open Sys2Proof Sys2Proof.Machine Sys2Proof.Laws

/-! ## Flag requests (R19, R20) -/

/-- What a flag request answers, as a frame's contents. -/
def flagAnswer (v : Solver) (q : FlagRequest) : TxBody :=
  .response (match q with | .read => 130 | .clear _ => 131) .ok (flagEcho v q)

/-- A flag request performed: the sticky flags it leaves, and its answer. -/
theorem performFlag_eq (l : Link) (s : State) (w : WaitingFlag) :
    performFlag l s w = sendAnswer l w.owed (flagAnswer s.solver w.request)
      { s with solver := { s.solver with sticky := stickyFrom s.solver.sticky w.request } } := by
  unfold performFlag
  split <;> (rename_i h; rw [h]; rfl)

/-- A flag request changes the ports and the sticky flags alone. -/
theorem performFlag_spec (l : Link) (s : State) (w : WaitingFlag) :
    performFlag l s w =
      { s with
        ports := (performFlag l s w).ports
        solver := { s.solver with sticky := stickyFrom s.solver.sticky w.request } } := by
  rw [performFlag_eq]
  cases l <;> rfl

/-- Flag requests change the ports and the sticky flags alone, on which they act in their order. -/
theorem performFlags_spec (l : Link) (ws : List WaitingFlag) (s : State) :
    ws.foldl (performFlag l) s =
      { s with
        ports := (ws.foldl (performFlag l) s).ports
        solver := { s.solver with sticky := ws.foldl (fun m w => stickyFrom m w.request) s.solver.sticky } } := by
  induction ws generalizing s with
  | nil => rfl
  | cons w ws ih =>
    rw [List.foldl_cons, ih, performFlag_spec]
    rfl

/-- The state with the flag wait list emptied. -/
def noneWaiting (s : State) : State := { s with solver := { s.solver with waiting := [] } }

/-- A flag request does not look at the wait list. -/
theorem performFlag_noneWaiting (l : Link) (s : State) (w : WaitingFlag) :
    performFlag l (noneWaiting s) w = noneWaiting (performFlag l s w) := by
  unfold performFlag
  split <;> (cases l <;> rfl)

/-- The wait list can as well be emptied before its requests are served. -/
theorem serveFlags_eq (s : State) : serveFlags s = s.solver.waiting.foldl (performFlag .sl) (noneWaiting s) := by
  have fold : ∀ (ws : List WaitingFlag) (t : State),
      ws.foldl (performFlag .sl) (noneWaiting t) = noneWaiting (ws.foldl (performFlag .sl) t) := by
    intro ws
    induction ws with
    | nil => intro t; rfl
    | cons w ws ih => intro t; rw [List.foldl_cons, List.foldl_cons, performFlag_noneWaiting, ih]
  exact (fold _ s).symm

/-- Step 1 of R12 changes the ports, the sticky flags and the wait list alone. -/
theorem serveFlags_spec (s : State) :
    serveFlags s =
      { s with
        ports := (serveFlags s).ports
        solver := { s.solver with
          sticky := s.solver.waiting.foldl (fun m w => stickyFrom m w.request) s.solver.sticky, waiting := [] } } := by
  rw [serveFlags_eq, performFlags_spec]
  rfl

/-! ## Edits (R50) -/

/-- What edits leave alone: every block but the ports, the table, the evaluator and the store; of the solver they change
geometry and last good values, of the output set the evaluator's fields of the pending set. -/
structure EditsOnly (s t : State) : Prop where
  part : t.part = s.part
  intake : t.intake = s.intake
  aid : t.aid = s.aid
  ladder : t.ladder = s.ladder
  duty : t.duty = s.duty
  items : t.items = s.items
  ring : t.ring = s.ring
  stamps : t.stamps = s.stamps
  solver : ∃ g v, t.solver = { s.solver with geometry := g, good := v }
  output : ∃ x y z, t.output = { s.output with pending := { s.output.pending with scales := x, binding := y, fallback := z } }

theorem EditsOnly.refl (s : State) : EditsOnly s s :=
  ⟨rfl, rfl, rfl, rfl, rfl, rfl, rfl, rfl, ⟨_, _, rfl⟩, ⟨_, _, _, rfl⟩⟩

theorem EditsOnly.trans {s t u : State} (h : EditsOnly s t) (k : EditsOnly t u) : EditsOnly s u where
  part := k.part.trans h.part
  intake := k.intake.trans h.intake
  aid := k.aid.trans h.aid
  ladder := k.ladder.trans h.ladder
  duty := k.duty.trans h.duty
  items := k.items.trans h.items
  ring := k.ring.trans h.ring
  stamps := k.stamps.trans h.stamps
  solver := by
    obtain ⟨g, v, hs⟩ := h.solver
    obtain ⟨g', v', ks⟩ := k.solver
    exact ⟨g', v', by rw [ks, hs]⟩
  output := by
    obtain ⟨x, y, z, ho⟩ := h.output
    obtain ⟨x', y', z', ko⟩ := k.output
    exact ⟨x', y', z', by rw [ko, ho]⟩

/-- A fold of steps that only edit only edits. -/
theorem EditsOnly.foldl {α : Type} {f : State → α → State} (h : ∀ s a, EditsOnly s (f s a)) (xs : List α) (s : State) :
    EditsOnly s (xs.foldl f s) := by
  induction xs generalizing s with
  | nil => exact .refl s
  | cons x xs ih => exact (h s x).trans (ih _)

/-- A port replaced. -/
theorem editsOnly_setPort (l : Link) (p : Port) (s : State) : EditsOnly s (setPort l p s) := by
  cases l <;> exact ⟨rfl, rfl, rfl, rfl, rfl, rfl, rfl, rfl, ⟨_, _, rfl⟩, ⟨_, _, _, rfl⟩⟩

/-- A change of the table, the evaluator and the store. -/
theorem editsOnly_of {s : State} (t : EnvTable) (e : Evaluator) (st : Store) :
    EditsOnly s { s with table := t, evaluator := e, store := st } :=
  ⟨rfl, rfl, rfl, rfl, rfl, rfl, rfl, rfl, ⟨_, _, rfl⟩, ⟨_, _, _, rfl⟩⟩

theorem editsOnly_markDirty (r : RecordId) (s : State) : EditsOnly s (markDirty r s) :=
  ⟨by simp, by simp, by simp, by simp, by simp, by simp, by simp, by simp, ⟨_, _, by simp; rfl⟩, ⟨_, _, _, by simp; rfl⟩⟩

theorem editsOnly_editRewrite (s : State) : EditsOnly s (editRewrite s) := by
  unfold editRewrite
  dsimp only
  split <;> exact ⟨rfl, rfl, rfl, rfl, rfl, rfl, rfl, rfl, ⟨_, _, rfl⟩, ⟨_, _, _, rfl⟩⟩

theorem editsOnly_acceptZone (n : Nat) (act : ZoneAction) (z : Zone) (s : State) :
    EditsOnly s (acceptZone n act z s) := by
  have marks : EditsOnly s (if clearsMarks act then clearEntryMarks n (putZone n z s) else putZone n z s) := by
    split <;> exact editsOnly_of _ _ _
  unfold acceptZone
  dsimp only
  split
  · exact (marks.trans (editsOnly_markDirty _ _)).trans (editsOnly_editRewrite _)
  · exact marks.trans (editsOnly_editRewrite _)

theorem editsOnly_acceptPlane (p : GradePlane) (s : State) : EditsOnly s (acceptPlane p s) := by
  have marks : EditsOnly s (clearEntryMarks Config.zoneCount (putPlane p s)) := editsOnly_of _ _ _
  unfold acceptPlane
  dsimp only
  split
  · exact (marks.trans (editsOnly_markDirty _ _)).trans (editsOnly_editRewrite _)
  · exact marks.trans (editsOnly_editRewrite _)

theorem editsOnly_applyGeometry (g : Geometry) (s : State) : EditsOnly s (applyGeometry g s) := by
  have stored : EditsOnly s
      { s with solver := { s.solver with geometry := .present g, good := saturateGood g s.solver.good } } :=
    ⟨rfl, rfl, rfl, rfl, rfl, rfl, rfl, rfl, ⟨_, _, rfl⟩, ⟨_, _, _, rfl⟩⟩
  exact (stored.trans (editsOnly_markDirty _ _)).trans (editsOnly_editRewrite _)

/-- What applying an edit can do to the state: nothing, or accept a zone, a plane or a geometry record. -/
theorem applyEdit_cases (l : Link) (e : Edit) (s : State) :
    (applyEdit l e s).2 = s ∨ (∃ n act z, (applyEdit l e s).2 = acceptZone n act z s) ∨
      (∃ p, (applyEdit l e s).2 = acceptPlane p s) ∨ ∃ g, (applyEdit l e s).2 = applyGeometry g s := by
  cases e with
  | zone n act =>
    simp only [applyEdit, applyZone]
    split
    · exact .inl rfl
    · split
      · exact .inr (.inl ⟨_, _, _, rfl⟩)
      · exact .inl rfl
  | grade act =>
    simp only [applyEdit, applyPlane]
    split
    · exact .inl rfl
    · split
      · exact .inr (.inr (.inl ⟨_, rfl⟩))
      · exact .inl rfl
  | geometry g => exact .inr (.inr (.inr ⟨g, rfl⟩))

theorem editsOnly_applyEdit (l : Link) (e : Edit) (s : State) : EditsOnly s (applyEdit l e s).2 := by
  obtain h | ⟨n, act, z, h⟩ | ⟨p, h⟩ | ⟨g, h⟩ := applyEdit_cases l e s <;> rw [h]
  · exact .refl s
  · exact editsOnly_acceptZone n act z s
  · exact editsOnly_acceptPlane p s
  · exact editsOnly_applyGeometry g s

/-- An applied edit sends nothing: its answer follows it. -/
@[simp] theorem applyEdit_ports (l : Link) (e : Edit) (s : State) : (applyEdit l e s).2.ports = s.ports := by
  obtain h | ⟨n, act, z, h⟩ | ⟨p, h⟩ | ⟨g, h⟩ := applyEdit_cases l e s <;> simp [h]

theorem quiet_applyEdit (l : Link) (e : Edit) (s : State) : Quiet s (applyEdit l e s).2 := by
  have only := editsOnly_applyEdit l e s
  obtain ⟨g, v, h⟩ := only.solver
  exact .of_ports (applyEdit_ports l e s) (applyEdit_queue l e s) (by rw [h]) (by rw [h]; exact id) (by rw [only.intake])

theorem editsOnly_performEdit (s : State) (q : QueuedEdit) : EditsOnly s (performEdit s q) :=
  (editsOnly_applyEdit q.link q.edit s).trans (editsOnly_setPort _ _ _)

theorem editsOnly_reply (l : Link) (r : Request) (x : Result) (e : Echo) (s : State) : EditsOnly s (reply l r x e s) :=
  editsOnly_setPort _ _ s

theorem editsOnly_takeEdit (l : Link) (e : Edit) (s : State) : EditsOnly s (takeEdit l e s) := by
  unfold takeEdit
  split
  · exact editsOnly_performEdit s _
  · split
    · exact editsOnly_of _ _ _
    · exact editsOnly_reply _ _ _ _ s

/-- A request taken only edits when its owner does. -/
theorem editsOnly_takeRequest {me : Instr} {l : Link} {serve : Payload → State → State}
    (h : ∀ d s, EditsOnly s (serve d s)) (s : State) : EditsOnly s (takeRequest me l serve s) := by
  unfold takeRequest
  split
  · exact .refl s
  · split
    · refine (editsOnly_setPort _ _ s : EditsOnly s (takeHead l s)).trans ?_
      unfold checkRequest
      split
      · exact editsOnly_setPort _ _ _
      · split
        · exact editsOnly_reply _ _ _ _ _
        · split
          · exact editsOnly_reply _ _ _ _ _
          · split
            · exact editsOnly_reply _ _ _ _ _
            · exact h _ _
    · exact .refl s

theorem editsOnly_serveZoneEdit (l : Link) (d : Payload) (s : State) : EditsOnly s (serveZoneEdit l d s) := by
  unfold serveZoneEdit
  split
  · exact editsOnly_takeEdit _ _ s
  · exact editsOnly_reply _ _ _ _ s

theorem editsOnly_serveSetGrade (l : Link) (d : Payload) (s : State) : EditsOnly s (serveSetGrade l d s) := by
  unfold serveSetGrade
  split
  · split
    · exact editsOnly_takeEdit _ _ s
    · exact editsOnly_reply _ _ _ _ s
  · exact editsOnly_reply _ _ _ _ s

theorem editsOnly_serveSetGeometry (l : Link) (d : Payload) (s : State) : EditsOnly s (serveSetGeometry l d s) := by
  unfold serveSetGeometry
  split
  · split
    · exact editsOnly_reply _ _ _ _ s
    · exact editsOnly_takeEdit _ _ s
  · exact editsOnly_reply _ _ _ _ s

/-- One step of the edit queue's application only edits (R50). -/
theorem editsOnly_editStep (s : State) (x : EditStep) : EditsOnly s (editStep s x) := by
  cases x with
  | apply =>
    rw [editStep_apply]
    unfold applyHead
    split
    · exact (editsOnly_of _ _ _).trans (editsOnly_performEdit _ _)
    · exact .refl s
  | take l =>
    rw [editStep_take]
    obtain h | ⟨f, serve, -, h, ⟨-, rfl⟩ | ⟨-, rfl⟩ | ⟨-, rfl⟩⟩ := takeEditFrame_cases l s <;> rw [h]
    · exact .refl s
    · exact editsOnly_takeRequest (editsOnly_serveZoneEdit l) s
    · exact editsOnly_takeRequest (editsOnly_serveSetGrade l) s
    · exact editsOnly_takeRequest (editsOnly_serveSetGeometry l) s

/-- Step 2 of R12 only edits. -/
theorem editsOnly_applyEdits (xs : List EditStep) (s : State) : EditsOnly s (applyEdits xs s) :=
  (EditsOnly.foldl editsOnly_editStep xs s).trans
    ((editsOnly_of _ _ _).trans (EditsOnly.foldl editsOnly_performEdit _ _))

end Sys2Proof.Proofs
end

section
/-! SUPPORT. The queues of the part: what they may hold while some answers are still to be given, and that every command
keeps it (O53). -/

namespace Sys2Proof.Proofs

open Sys2Proof Sys2Proof.Machine Sys2Proof.Laws

/-! ## Answers owed -/

/-- The answer that one request of link `l` is owed, seen on link `k`. -/
def due (l : Link) (owed : Bool) (k : Link) : Nat := if owed = true ∧ k = l then 1 else 0

/-- No answer owed. -/
def nothing : Link → Nat := fun _ => 0

/-- The answers that edits of link `l` are owed. -/
def editsOwed (qs : List QueuedEdit) (l : Link) : Nat := (qs.filter fun q => decide (q.link = l) && q.owed).length

/-- The answers that flag requests of link `l` are owed: they all come from SL. -/
def flagsOwed (ws : List WaitingFlag) (l : Link) : Nat := if l = .sl then (ws.filter fun w => w.owed).length else 0

theorem owedOn_eq (s : State) (l : Link) : owedOn s l = editsOwed s.table.queue l + flagsOwed s.solver.waiting l := rfl

@[simp] theorem due_notOwed (l k : Link) : due l false k = 0 := by simp [due]

@[simp] theorem due_owed (l : Link) : due l true l = 1 := by simp [due]

theorem due_ne {l k : Link} (owed : Bool) (h : k ≠ l) : due l owed k = 0 := by simp [due, h]

@[simp] theorem editsOwed_nil (l : Link) : editsOwed [] l = 0 := rfl

theorem editsOwed_cons (q : QueuedEdit) (qs : List QueuedEdit) (l : Link) :
    editsOwed (q :: qs) l = editsOwed qs l + due q.link q.owed l := by
  by_cases hl : q.link = l
  · cases ho : q.owed <;> simp [editsOwed, due, ho, hl]
  · simp [editsOwed, due, hl, Ne.symm hl]

theorem editsOwed_append (qs rs : List QueuedEdit) (l : Link) :
    editsOwed (qs ++ rs) l = editsOwed qs l + editsOwed rs l := by simp [editsOwed]

@[simp] theorem flagsOwed_nil (l : Link) : flagsOwed [] l = 0 := by simp [flagsOwed]

theorem flagsOwed_cons (w : WaitingFlag) (ws : List WaitingFlag) (l : Link) :
    flagsOwed (w :: ws) l = flagsOwed ws l + due .sl w.owed l := by
  by_cases hl : l = .sl <;> cases ho : w.owed <;> simp [flagsOwed, due, ho, hl]

theorem flagsOwed_append (ws vs : List WaitingFlag) (l : Link) :
    flagsOwed (ws ++ vs) l = flagsOwed ws l + flagsOwed vs l := by
  unfold flagsOwed; split <;> simp

/-! ## What the queues may hold -/

/-- A port's queues within their bounds, one place reserved for each of `n` answers owed, and empty in BUS_OFF. -/
structure PortHolds (p : Port) (n : Nat) : Prop where
  rx : p.rx.length ≤ 8
  places : p.tx.length + p.reserved ≤ 8
  reserved : p.reserved = n
  off : p.state = .busOff → p.rx = [] ∧ p.tx = [] ∧ p.reserved = 0

/-- The queue invariant in the middle of a command: link `l` owes `e l` answers more than those of the requests that
wait. -/
structure Owing (e : Link → Nat) (s : State) : Prop where
  ports : ∀ l, PortHolds (portOf s l) (owedOn s l + e l)
  edits : s.table.queue.length ≤ 4
  flags : s.solver.waiting.length ≤ 4
  idle : s.solver.solve = .idle → s.table.queue = [] ∧ s.solver.waiting = [] ∧ s.intake.slot = none

/-- Between commands nothing more is owed than the answers of the requests that wait. -/
theorem queueInv_iff (s : State) : QueueInv s ↔ Owing nothing s := by
  constructor
  · rintro ⟨hp, he, hf, hi⟩
    exact ⟨fun l => ⟨(hp l).1, (hp l).2.1, (hp l).2.2.1, (hp l).2.2.2⟩, he, hf, hi⟩
  · rintro ⟨hp, he, hf, hi⟩
    exact ⟨fun l => ⟨(hp l).rx, (hp l).places, (hp l).reserved, (hp l).off⟩, he, hf, hi⟩

/-- A port that only sends within its places still holds what it may. -/
theorem PortHolds.sends {p q : Port} {n : Nat} (h : PortHolds p n) (k : SendsWithin p q) : PortHolds q n := by
  obtain ⟨⟨hs, -, hr, hv, -⟩, hp, ho⟩ := k
  refine ⟨hr ▸ h.rx, hp h.places, hv ▸ h.reserved, fun hq => ?_⟩
  have off := hs ▸ hq
  rw [hr, ho off, hv]
  exact h.off off

/-- Quiet steps keep the invariant. -/
theorem Owing.quiet {e : Link → Nat} {s t : State} (h : Owing e s) (k : Quiet s t) : Owing e t := by
  have owed : ∀ l, owedOn t l = owedOn s l := fun l => by rw [owedOn_eq, owedOn_eq, k.queue, k.waiting]
  refine ⟨fun l => owed l ▸ (h.ports l).sends (k.ports l), k.queue ▸ h.edits, k.waiting ▸ h.flags, fun hi => ?_⟩
  rw [k.queue, k.waiting, k.slot]
  exact h.idle (k.solving hi)

/-- Only a port's state, queues and reserved places count. -/
theorem PortHolds.congr {p q : Port} {n : Nat} (h : PortHolds p n) (hs : q.state = p.state) (hr : q.rx = p.rx)
    (ht : q.tx = p.tx) (hv : q.reserved = p.reserved) : PortHolds q n := by
  obtain ⟨a, b, c, d⟩ := h
  exact ⟨hr ▸ a, by rwa [ht, hv], hv ▸ c, by rwa [hs, hr, ht, hv]⟩

/-- One port replaced by another that holds what it may. -/
theorem Owing.setPort {e e' : Link → Nat} {s : State} {l : Link} {p : Port} (h : Owing e s)
    (hp : PortHolds p (owedOn s l + e' l)) (he : ∀ k, k ≠ l → e' k = e k) : Owing e' (setPort l p s) where
  ports k := by
    have owed : owedOn (Machine.setPort l p s) k = owedOn s k := by simp [owedOn]
    rw [owed]
    by_cases hk : k = l
    · subst hk; rwa [portOf_setPort]
    · rw [portOf_setPort_ne l k p s hk, he k hk]; exact h.ports k
  edits := by simpa using h.edits
  flags := by simpa using h.flags
  idle := by simpa using h.idle

/-! ## Answering -/

/-- An answer that is owed takes the place reserved for it. -/
theorem Owing.sendAnswer {e e' : Link → Nat} {s : State} {l : Link} {owed : Bool} (b : TxBody) (h : Owing e s)
    (he : ∀ k, e k = e' k + due l owed k) : Owing e' (sendAnswer l owed b s) := by
  refine h.setPort ?_ fun k hk => by simp [he k, due_ne owed hk]
  have hl := h.ports l
  rw [he l] at hl
  cases owed with
  | false => simpa [offerAnswer_notOwed] using hl
  | true =>
    obtain ⟨hr, hp, hv, ho⟩ := hl
    rw [due_owed] at hv
    have active : (portOf s l).state = .active := by
      cases hs : (portOf s l).state with
      | active => rfl
      | busOff => exact absurd (ho hs).2.2 (by omega)
    rw [offerAnswer_owed, if_pos active]
    refine ⟨hr, ?_, ?_, ?_⟩
    · simp only [List.length_append, List.length_singleton]; omega
    · simp only; omega
    · simp [active]

/-- A request just taken is answered, whatever quiet work came before. -/
theorem Owing.reply {s t : State} {l : Link} (h : Owing (due l true) s) (k : Quiet s t) (r : Request) (x : Result)
    (v : Echo) : Owing nothing (reply l r x v t) :=
  (h.quiet k).sendAnswer _ fun k => by simp [nothing]

/-- An edit applied and answered. -/
theorem Owing.performEdit {e e' : Link → Nat} {s : State} {q : QueuedEdit} (h : Owing e s)
    (he : ∀ k, e k = e' k + due q.link q.owed k) : Owing e' (performEdit s q) :=
  (h.quiet (quiet_applyEdit q.link q.edit s)).sendAnswer _ he

/-- Edits applied and answered one after another. -/
theorem Owing.performEdits {e e' : Link → Nat} (qs : List QueuedEdit) {s : State} (h : Owing e s)
    (he : ∀ k, e k = e' k + editsOwed qs k) : Owing e' (qs.foldl Machine.performEdit s) := by
  induction qs generalizing e s with
  | nil =>
    have : e = e' := funext fun k => by simpa using he k
    exact this ▸ h
  | cons q qs ih =>
    refine ih (e := fun k => e' k + editsOwed qs k) (h.performEdit fun k => ?_) fun _ => rfl
    rw [he k, editsOwed_cons, Nat.add_assoc]

/-- A flag request performed and answered on SL. -/
theorem Owing.performFlag {e e' : Link → Nat} {s : State} {w : WaitingFlag} {l : Link} (h : Owing e s)
    (he : ∀ k, e k = e' k + due l w.owed k) : Owing e' (performFlag l s w) := by
  unfold Machine.performFlag
  split
  · exact h.sendAnswer _ he
  · exact (h.quiet .of_ports).sendAnswer _ he

/-- Flag requests performed and answered one after another. -/
theorem Owing.performFlags {e e' : Link → Nat} (ws : List WaitingFlag) {s : State} (h : Owing e s)
    (he : ∀ k, e k = e' k + flagsOwed ws k) : Owing e' (ws.foldl (Machine.performFlag .sl) s) := by
  induction ws generalizing e s with
  | nil =>
    have : e = e' := funext fun k => by simpa using he k
    exact this ▸ h
  | cons w ws ih =>
    refine ih (e := fun k => e' k + flagsOwed ws k) (h.performFlag fun k => ?_) fun _ => rfl
    rw [he k, flagsOwed_cons, Nat.add_assoc]

/-! ## Taking a request -/

/-- What serves a request gives its answer, or puts the request where it waits. -/
def Serves (l : Link) (serve : Payload → State → State) : Prop :=
  ∀ d s, Owing (due l true) s → Owing nothing (serve d s)

/-- A port whose head frame is taken reserves the place of its answer. -/
theorem Owing.takeHead {s : State} {l : Link} (h : Owing nothing s) (hp : hasPlace (portOf s l) = true)
    (ha : (portOf s l).state ≠ .busOff) : Owing (due l true) (takeHead l s) := by
  refine h.setPort ?_ fun k hk => by simp [due_ne true hk, nothing]
  have room := (hasPlace_iff _).1 hp
  obtain ⟨hr, -, hv, -⟩ := h.ports l
  refine ⟨by simp only [List.length_tail]; omega, by simp only; omega, ?_, fun ho => absurd ho ha⟩
  simpa [nothing] using hv

/-- A port that takes frames is not in BUS_OFF. -/
theorem headFrame_active {s : State} {l : Link} {f : RxFrame} (h : headFrame s l = some f) :
    s.part ≠ .loading ∧ (portOf s l).state ≠ .busOff ∧ (portOf s l).rx.head? = some f := by
  unfold headFrame at h
  split at h
  · cases h
  · rename_i hn
    exact ⟨fun hp => hn (.inl hp), fun ho => hn (.inr ho), h⟩

/-- A taken request is refused by a check of R181, or served; only a permitted request is. -/
theorem Owing.takeRequest {s : State} {l : Link} {me : Instr} {serve : Payload → State → State} (h : Owing nothing s)
    (hs : ∀ f r t, takerOf l f = me → requestOf (frameCode f) = some r → permitted r l = true →
      Owing (due l true) t → Owing nothing (serve f.data t)) :
    Owing nothing (takeRequest me l serve s) := by
  unfold Machine.takeRequest
  split
  · exact h
  · rename_i f hf
    split
    · rename_i ht
      have taken := h.takeHead ht.2 (headFrame_active hf).2.1
      unfold checkRequest
      split
      · exact taken.sendAnswer _ fun k => by simp [nothing]
      · rename_i r hr
        split
        · exact taken.reply (.refl _) _ _ _
        · rename_i hp
          split
          · exact taken.reply (.refl _) _ _ _
          · split
            · exact taken.reply (.refl _) _ _ _
            · exact hs f r _ ht.1 hr (by simpa using hp) taken
    · exact h

/-- A request whose owner gives its answer. -/
theorem Owing.request {s : State} {l : Link} {me : Instr} {serve : Payload → State → State} (h : Owing nothing s)
    (hs : Serves l serve) : Owing nothing (Machine.takeRequest me l serve s) :=
  h.takeRequest fun f _ t _ _ _ ht => hs f.data t ht

/-- The request that the frame of a command names (none inside: no request), for the commands of which only certain
requests may be served. -/
def requestNamed : Instr → Option (Option Request)
  | .unknownRequest _ => some none
  | .sample _ => some (some .sample)
  | .readFlags _ => some (some .readFlags)
  | .clearFlags _ => some (some .clearFlags)
  | _ => none

/-- Such a command takes no frame but of its own request. -/
theorem takerOf_named {l : Link} {f : RxFrame} {x : Option Request} (h : requestNamed (takerOf l f) = some x) :
    requestOf (frameCode f) = x := by
  unfold takerOf zoneTaker at h
  repeat' split at h
  all_goals simp_all [requestNamed]

/-! ## The requests that may wait -/

/-- An edit is applied and answered at once, or waits, or is answered BUSY (R44). -/
theorem Owing.takeEdit {s : State} {l : Link} (h : Owing (due l true) s) (x : Edit) :
    Owing nothing (takeEdit l x s) := by
  unfold Machine.takeEdit
  split
  · exact h.performEdit fun k => by simp [nothing]
  · rename_i hn
    split
    · rename_i hc
      refine ⟨fun k => ?_, ?_, h.flags, fun hi => absurd hi (by simpa [solverIdle] using hn)⟩
      · have hk := h.ports k
        rw [owedOn_eq] at hk ⊢
        rw [editsOwed_append, editsOwed_cons, editsOwed_nil]
        have sum : ∀ a b c : Nat, a + (0 + c) + b + nothing k = a + b + c := fun a b c => by simp only [nothing]; omega
        rw [sum]
        exact hk
      · simp only [List.length_append, List.length_singleton]
        exact hc
    · exact h.reply (.refl s) _ _ _

theorem serves_zoneEdit (l : Link) : Serves l (serveZoneEdit l) := by
  intro d s h
  unfold serveZoneEdit
  split
  · exact h.takeEdit _
  · exact h.reply (.refl s) _ _ _

theorem serves_setGrade (l : Link) : Serves l (serveSetGrade l) := by
  intro d s h
  unfold serveSetGrade
  split
  · split
    · exact h.takeEdit _
    · exact h.reply (.refl s) _ _ _
  · exact h.reply (.refl s) _ _ _

theorem serves_setGeometry (l : Link) : Serves l (serveSetGeometry l) := by
  intro d s h
  unfold serveSetGeometry
  split
  · split
    · exact h.reply (.refl s) _ _ _
    · exact h.takeEdit _
  · exact h.reply (.refl s) _ _ _

/-- A flag request on SL is performed and answered at once, or waits, or is answered BUSY (R19). -/
theorem Owing.takeFlag {s : State} (h : Owing (due .sl true) s) (r : Request) (q : FlagRequest) (d : Payload) :
    Owing nothing (takeFlag .sl r q d s) := by
  unfold Machine.takeFlag
  split
  · exact h.performFlag fun k => by simp [nothing]
  · rename_i hn
    unfold queueFlag
    split
    · rename_i hc
      refine ⟨fun k => ?_, h.edits, ?_, fun hi => absurd hi (by simpa [solverIdle] using hn)⟩
      · have hk := h.ports k
        rw [owedOn_eq] at hk ⊢
        rw [flagsOwed_append, flagsOwed_cons, flagsOwed_nil]
        have sum : ∀ a b c : Nat, a + (b + (0 + c)) + nothing k = a + b + c := fun a b c => by simp only [nothing]; omega
        rw [sum]
        exact hk
      · simp only [List.length_append, List.length_singleton]
        exact hc
    · exact h.reply (.refl s) _ _ _

theorem serves_readFlags : Serves .sl (serveReadFlags .sl) := fun d _ h => h.takeFlag _ _ d

theorem serves_clearFlags : Serves .sl (serveClearFlags .sl) := by
  intro d s h
  unfold serveClearFlags
  split
  · split
    · exact h.reply (.refl s) _ _ _
    · exact h.takeFlag _ _ _
  · exact h.reply (.refl s) _ _ _

/-! ## The requests at the ladder -/

theorem Owing.servePlace {s : State} {l : Link} (h : Owing (due l true) s) (r : Request) (src : Source) (rpm : Int)
    (duration wait : Option Nat) : Owing nothing (servePlace l r src rpm duration wait s) :=
  h.reply (quiet_ladderEvent _ _ s) _ _ _

theorem Owing.serveWithdraw {s : State} {l : Link} (h : Owing (due l true) s) (r : Request) (src : Source) :
    Owing nothing (serveWithdraw l r src s) := by
  unfold Machine.serveWithdraw
  split
  · exact h.reply (.refl s) _ _ _
  · exact h.reply (quiet_ladderEvent _ _ s) _ _ _

theorem serves_setMode (l : Link) : Serves l (serveSetMode l) := by
  intro d s h
  unfold serveSetMode
  split
  · split
    · exact h.servePlace _ _ _ _ _
    · exact h.serveWithdraw _ _
  · exact h.reply (.refl s) _ _ _

theorem serves_touchIdle (l : Link) : Serves l (serveTouchIdle l) := by
  intro d s h
  unfold serveTouchIdle
  split
  · exact h.servePlace _ _ _ _ _
  · exact h.serveWithdraw _ _
  · exact h.reply (.refl s) _ _ _

theorem serves_regen (l : Link) : Serves l (serveRegen l) := by
  intro d s h
  unfold serveRegen
  split
  · exact h.servePlace _ _ _ _ _
  · exact h.serveWithdraw _ _
  · exact h.reply (.refl s) _ _ _

theorem serves_test (l : Link) : Serves l (serveTest l) := by
  intro d s h
  unfold serveTest
  split
  · split
    · exact h.reply (.refl s) _ _ _
    · exact h.servePlace _ _ _ _ _
  · exact h.servePlace _ _ _ _ _
  · exact h.serveWithdraw _ _
  · exact h.serveWithdraw _ _
  · exact h.reply (.refl s) _ _ _

theorem serves_setLadder (l : Link) : Serves l (serveSetLadder l) := by
  intro d s h
  unfold serveSetLadder
  split
  · split
    · exact h.reply ((quiet_ladderEvent _ _ s).trans (quiet_markDirty _ _)) _ _ _
    · exact h.reply (.refl s) _ _ _
  · exact h.reply (.refl s) _ _ _

theorem serves_setEconomy (l : Link) : Serves l (serveSetEconomy l) := by
  intro d s h
  unfold serveSetEconomy
  split
  · exact h.reply ((quiet_retarget _ s).trans (quiet_markDirty _ _)) _ _ _
  · exact h.reply (.refl s) _ _ _

/-! ## The requests at the schedule, the ring and the accumulators -/

theorem serves_ack (l : Link) : Serves l (serveAck l) := by
  intro d s h
  have acked : ∀ k f, Owing nothing (serveAck.serveAckOn l s k f) := by
    intro k f
    unfold serveAck.serveAckOn
    split
    · exact h.reply (.refl s) _ _ _
    · exact h.reply (quiet_markDirty _ _).behind _ _ _
  unfold serveAck
  split
  · split
    · exact h.reply (.refl s) _ _ _
    · split
      · exact acked _ _
      · exact acked _ _
      · exact acked _ _
      · exact h.reply (.refl s) _ _ _
  · exact h.reply (.refl s) _ _ _

theorem serves_serviceDone (l : Link) : Serves l (serveServiceDone l) := by
  intro d s h
  unfold serveServiceDone
  split
  · split
    · exact h.reply (.refl s) _ _ _
    · split
      · split
        · exact h.reply (((quiet_syncService _).trans (quiet_produceNotice _ _)).trans (quiet_markDirty _ _)).behind _ _ _
        · exact h.reply (.refl s) _ _ _
      · exact h.reply (.refl s) _ _ _
  · exact h.reply (.refl s) _ _ _

theorem serves_itemDefine (l : Link) : Serves l (serveItemDefine l) := by
  intro d s h
  unfold serveItemDefine
  split
  · split
    · exact h.reply (.refl s) _ _ _
    · split
      · exact h.reply (quiet_markDirty _ _).behind _ _ _
      · exact h.reply (.refl s) _ _ _
  · exact h.reply (.refl s) _ _ _

/-- RETIRE_DONE of an item that needs no release follows the answer (R149, log 13). -/
theorem serves_itemRetire (l : Link) : Serves l (serveItemRetire l) := by
  intro d s h
  have stored : ∀ items : List Item, ∀ k, Quiet s (markDirty (.item k) (syncService { s with items := items })) :=
    fun _ k => ((quiet_syncService _).trans (quiet_markDirty (.item k) _)).behind
  unfold serveItemRetire
  split
  · split
    · exact h.reply (.refl s) _ _ _
    · split
      · exact h.reply (.refl s) _ _ _
      · exact h.reply (.refl s) _ _ _
      · exact (h.reply (stored _ _) _ _ _).quiet (quiet_sendNotice _ _ _)
      · exact h.reply (stored _ _) _ _ _
  · exact h.reply (.refl s) _ _ _

theorem serves_ringRead (l : Link) : Serves l (serveRingRead l) := fun _ s h => h.reply (.refl s) _ _ _

theorem quiet_advanceReader (r : Reader) (p : Nat) (s : State) : Quiet s (advanceReader r p s) :=
  (quiet_releaseFrom (heldCount s.ring)
    { s with ring := setReader r (advanced (readerOf s.ring r) p) s.ring }).behind.trans .of_ports

theorem serves_ringAdvance (l : Link) : Serves l (serveRingAdvance l) := by
  intro d s h
  unfold serveRingAdvance
  split
  · dsimp only
    split
    · exact h.reply (quiet_advanceReader _ _ s) _ _ _
    · exact h.reply (.refl s) _ _ _
  · exact h.reply (.refl s) _ _ _

theorem serves_ringClearLost (l : Link) : Serves l (serveRingClearLost l) := by
  intro d s h
  unfold serveRingClearLost
  split
  · dsimp only
    split
    · exact h.reply (quiet_markDirty _ _).behind _ _ _
    · exact h.reply .of_ports _ _ _
  · exact h.reply (.refl s) _ _ _

theorem serves_accumRead (l : Link) : Serves l (serveAccumRead l) := fun _ s h => h.reply (.refl s) _ _ _

theorem serves_accumSet (l : Link) : Serves l (serveAccumSet l) := by
  intro d s h
  unfold serveAccumSet
  split
  · dsimp only
    split
    · exact h.reply (.refl s) _ _ _
    · exact h.reply (((quiet_handOnBasis _ _).trans (quiet_syncService _)).trans (quiet_triggerSave _)).behind _ _ _
  · exact h.reply (quiet_markDirty _ _).behind _ _ _
  · exact h.reply (.refl s) _ _ _

/-! ## The other requests -/

theorem serves_setSolver (l : Link) : Serves l (serveSetSolver l) := by
  intro d s h
  unfold serveSetSolver
  split
  · split
    · exact h.reply (quiet_markDirty _ _).behind _ _ _
    · exact h.reply (.refl s) _ _ _
  · exact h.reply (.refl s) _ _ _

theorem serves_setAids (l : Link) : Serves l (serveSetAids l) := by
  intro d s h
  unfold serveSetAids
  split
  · split
    · exact h.reply (quiet_markDirty _ _).behind _ _ _
    · exact h.reply (.refl s) _ _ _
  · split
    · exact h.reply (quiet_markDirty _ _).behind _ _ _
    · exact h.reply (.refl s) _ _ _
  · exact h.reply (.refl s) _ _ _

theorem serves_setOutputPeriod (l : Link) : Serves l (serveSetOutputPeriod l) := by
  intro d s h
  unfold serveSetOutputPeriod
  split
  · exact h.reply (quiet_markDirty _ _).behind _ _ _
  · exact h.reply (.refl s) _ _ _

/-- The receive-overrun flag is no queue (R180). -/
theorem Owing.clearOverrun {e : Link → Nat} {s : State} {l : Link} (h : Owing e s) : Owing e (clearOverrun l s) :=
  h.setPort ((h.ports l).congr rfl rfl rfl rfl) fun _ _ => rfl

theorem serves_statusQuery (l : Link) : Serves l (serveStatusQuery l) := fun _ _ h =>
  h.clearOverrun.reply (.refl _) _ _ _

theorem serves_identify (l : Link) : Serves l (serveIdentify l) := fun _ _ h => h.clearOverrun.reply (.refl _) _ _ _

theorem serves_stampRead (l : Link) : Serves l (serveStampRead l) := by
  intro d s h
  unfold serveStampRead
  split
  · exact h.reply .of_ports _ _ _
  · exact h.reply (.refl s) _ _ _

theorem serves_keyOff (l : Link) : Serves l (serveKeyOff l) := fun _ _ h =>
  h.reply (quiet_triggerSave _).behind _ _ _

theorem Owing.acceptRestart {s : State} {l : Link} (h : Owing (due l true) s) (n : Option NodesRecord) :
    Owing nothing (acceptRestart l n s) := by
  have placed : Quiet s (placeNodes n s) := by
    unfold placeNodes
    split
    · exact .of_ports
    · exact .refl s
  exact h.reply (placed.trans (quiet_triggerSave
    { placeNodes n s with store := { (placeNodes n s).store with restartPending := true } }).behind) _ _ _

theorem serves_restart (l : Link) : Serves l (serveRestart l) := by
  intro d s h
  unfold serveRestart
  split
  · split
    · exact h.reply (.refl s) _ _ _
    · exact h.acceptRestart _
  · exact h.acceptRestart _
  · exact h.reply (.refl s) _ _ _

end Sys2Proof.Proofs
end

section
/-! SUPPORT. Every command keeps the queues within what they may hold, with one place reserved for each answer owed
(O53). -/

namespace Sys2Proof.Proofs

open Sys2Proof Sys2Proof.Machine Sys2Proof.Laws

/-! ## The links -/

theorem owing_receiveFrame {s : State} (h : Owing nothing s) (l : Link) (f : RxFrame) :
    Owing nothing (setPort l (receiveFrame (portOf s l) f) s) := by
  refine h.setPort ?_ fun _ _ => rfl
  have hl := h.ports l
  unfold receiveFrame
  split
  · exact hl
  · rename_i ho
    split
    · split
      · rename_i hc
        obtain ⟨-, hp, hv, -⟩ := hl
        have room : (portOf s l).rx.length < 8 := hc
        exact ⟨by simp only [List.length_append, List.length_singleton]; omega, hp, hv, fun h => absurd h ho⟩
      · exact hl.congr rfl rfl rfl rfl
    · exact hl

theorem owing_frameTransmitted {s : State} (h : Owing nothing s) (l : Link) (ha : (portOf s l).state = .active) :
    Owing nothing (setPort l { portOf s l with tx := (portOf s l).tx.tail } s) := by
  refine h.setPort ?_ fun _ _ => rfl
  obtain ⟨hr, hp, hv, -⟩ := h.ports l
  exact ⟨hr, by simp only [List.length_tail]; omega, hv, fun h => by simp [ha] at h⟩

/-- Forgetting the answers of a link leaves none owed on it, and those of the other links as they are. -/
theorem owedOn_forgetAnswers (s : State) (l k : Link) :
    owedOn (forgetAnswers l s) k = if k = l then 0 else owedOn s k := by
  have edits : ∀ qs : List QueuedEdit, editsOwed (qs.map (forgetEdit l)) k = if k = l then 0 else editsOwed qs k := by
    intro qs
    induction qs with
    | nil => simp
    | cons q qs ih =>
      rw [List.map_cons, editsOwed_cons, editsOwed_cons, ih]
      by_cases hk : k = l
      · by_cases hq : q.link = l
        · simp [forgetEdit, due, hk, hq]
        · have away : l ≠ q.link := fun h => hq h.symm
          simp [forgetEdit, hk, hq, due_ne q.owed away]
      · by_cases hq : q.link = l <;> simp [forgetEdit, due, hk, hq]
  have flags : ∀ ws : List WaitingFlag, flagsOwed (ws.map (forgetFlag l)) k = if k = l then 0 else flagsOwed ws k := by
    intro ws
    induction ws with
    | nil => simp
    | cons w ws ih =>
      rw [List.map_cons, flagsOwed_cons, flagsOwed_cons, ih]
      by_cases hq : l = .sl <;> by_cases hk : k = l <;> simp_all [forgetFlag, due]
  rw [owedOn_eq, owedOn_eq]
  simp only [forgetAnswers]
  rw [edits, flags]
  split <;> rfl

/-- A port that goes BUS_OFF loses its queues, and the answers owed on it are let go (R51, R183). -/
theorem owing_busOff {s : State} (h : Owing nothing s) (l : Link) :
    Owing nothing (forgetAnswers l (setPort l (portOff (portOf s l)) s)) where
  ports k := by
    rw [owedOn_forgetAnswers]
    by_cases hk : k = l
    · subst hk
      have port : portOf (forgetAnswers k (setPort k (portOff (portOf s k)) s)) k = portOff (portOf s k) := by
        exact (portOf_congr (s := setPort k (portOff (portOf s k)) s) rfl k).trans (portOf_setPort k _ s)
      rw [port, if_pos rfl]
      exact ⟨Nat.zero_le _, Nat.zero_le _, rfl, fun _ => ⟨rfl, rfl, rfl⟩⟩
    · have port : portOf (forgetAnswers l (setPort l (portOff (portOf s l)) s)) k = portOf s k := by
        exact (portOf_congr (s := setPort l (portOff (portOf s l)) s) rfl k).trans (portOf_setPort_ne l k _ s hk)
      rw [port, if_neg hk]
      simpa [owedOn] using h.ports k
  edits := by simpa [forgetAnswers] using h.edits
  flags := by simpa [forgetAnswers] using h.flags
  idle := by simpa [forgetAnswers] using h.idle

theorem owing_busOffRecovery {s : State} (h : Owing nothing s) (l : Link) :
    Owing nothing (setPort l { portOf s l with state := .active } s) := by
  refine h.setPort ?_ fun _ _ => rfl
  obtain ⟨hr, hp, hv, -⟩ := h.ports l
  exact ⟨hr, hp, hv, fun ho => nomatch ho⟩

/-! ## Samples and the solve -/

/-- A sample that begins a solve takes no place in a queue. -/
theorem owing_beginSolve {s : State} (h : Owing nothing s) (x : Sample) : Owing nothing (beginSolve x s) :=
  ⟨h.ports, h.edits, h.flags, fun hi => nomatch hi⟩

/-- Only while a solve is in flight does a taken sample wait in the pending slot (R4). -/
theorem owing_takeSample {s : State} (h : Owing nothing s) (x : Sample) : Owing nothing (takeSample x s) := by
  unfold takeSample
  dsimp only
  split
  · exact owing_beginSolve (h.quiet .of_ports) x
  · rename_i hn
    have busy : s.solver.solve ≠ .idle := by simpa [solverIdle] using hn
    exact ⟨h.ports, h.edits, h.flags, fun hi => absurd hi busy⟩

theorem owing_intakeSample {s : State} (h : Owing nothing s) (x : Sample) : Owing nothing (intakeSample x s) := by
  unfold intakeSample
  split
  · exact h
  · exact owing_takeSample h x

theorem owing_dropHead {s : State} (h : Owing nothing s) (l : Link) : Owing nothing (dropHead l s) := by
  refine h.setPort ?_ fun _ _ => rfl
  obtain ⟨hr, hp, hv, ho⟩ := h.ports l
  exact ⟨by simp only [List.length_tail]; omega, hp, hv, fun hb => by simp [ho hb]⟩

theorem owing_takeSampleFrame {s : State} (h : Owing nothing s) (l : Link) : Owing nothing (takeSampleFrame l s) := by
  unfold takeSampleFrame
  split
  · exact h
  · split
    · split
      · exact owing_intakeSample (owing_dropHead h l) _
      · exact owing_dropHead h l
    · exact h

/-- A SAMPLE on CL or SL is never served: it is not permitted there. -/
theorem owing_sampleRefused {s : State} (h : Owing nothing s) {l : Link} (hl : l ≠ .ml) :
    Owing nothing (takeRequest (.sample l) l (fun _ s => s) s) := by
  refine h.takeRequest fun f r t ht hr hp _ => ?_
  obtain rfl : Request.sample = r := by simpa [takerOf_named (x := some .sample) (by rw [ht]; rfl)] using hr
  cases l with
  | ml => exact absurd rfl hl
  | cl => cases hp
  | sl => cases hp

/-- A frame that names no request is answered by the first check of R181. -/
theorem owing_unknownRequest {s : State} (h : Owing nothing s) (l : Link) :
    Owing nothing (takeRequest (.unknownRequest l) l (fun _ s => s) s) :=
  h.takeRequest fun f r t ht hr _ _ => by simp [takerOf_named (x := none) (by rw [ht]; rfl)] at hr

/-! ## The finish of a solve (R12) -/

/-- The waiting flag requests are answered, and none waits any more. -/
theorem owing_serveFlags {s : State} (h : Owing nothing s) : Owing nothing (serveFlags s) := by
  rw [serveFlags_eq]
  refine Owing.performFlags (e := flagsOwed s.solver.waiting) s.solver.waiting ?_ fun k => by simp [nothing]
  refine ⟨fun k => ?_, h.edits, Nat.zero_le _, fun hi => ?_⟩
  · have hk := h.ports k
    rw [owedOn_eq] at hk ⊢
    have emptied : editsOwed (noneWaiting s).table.queue k + flagsOwed (noneWaiting s).solver.waiting k =
        editsOwed s.table.queue k := by simp [noneWaiting]
    rw [emptied]
    exact hk
  · obtain ⟨hq, -, hx⟩ := h.idle hi
    exact ⟨hq, rfl, hx⟩

/-- An edit at the head of the queue is applied and answered. -/
theorem owing_applyHead {s : State} (h : Owing nothing s) : Owing nothing (applyHead s) := by
  unfold applyHead
  split
  · rename_i q rest hq
    refine Owing.performEdit (e := due q.link q.owed) ⟨fun k => ?_, ?_, h.flags, fun hi => ?_⟩ fun k => by simp [nothing]
    · have hk := h.ports k
      rw [owedOn_eq] at hk ⊢
      rw [hq, editsOwed_cons] at hk
      simp only [nothing, Nat.add_zero] at hk
      rwa [Nat.add_right_comm]
    · have := h.edits
      rw [hq, List.length_cons] at this
      exact Nat.le_of_succ_le this
    · have := (h.idle hi).1
      rw [hq] at this
      cases this
  · exact h

theorem owing_editStep {s : State} (h : Owing nothing s) (x : EditStep) : Owing nothing (editStep s x) := by
  cases x with
  | apply => exact owing_applyHead h
  | take l =>
    rw [editStep_take]
    obtain k | ⟨f, serve, -, k, ⟨-, rfl⟩ | ⟨-, rfl⟩ | ⟨-, rfl⟩⟩ := takeEditFrame_cases l s <;> rw [k]
    · exact h
    · exact h.request (serves_zoneEdit l)
    · exact h.request (serves_setGrade l)
    · exact h.request (serves_setGeometry l)

/-- Every edit that still waits is applied and answered. -/
theorem owing_applyQueue {s : State} (h : Owing nothing s) : Owing nothing (applyQueue s) := by
  refine Owing.performEdits (e := editsOwed s.table.queue) s.table.queue ?_ fun k => by simp [nothing]
  refine ⟨fun k => ?_, Nat.zero_le _, h.flags, fun hi => ?_⟩
  · have hk := h.ports k
    rw [owedOn_eq] at hk ⊢
    rw [editsOwed_nil, Nat.zero_add, Nat.add_comm]
    exact hk
  · obtain ⟨-, hw, hx⟩ := h.idle hi
    exact ⟨rfl, hw, hx⟩

theorem owing_applyEdits (xs : List EditStep) {s : State} (h : Owing nothing s) : Owing nothing (applyEdits xs s) := by
  refine owing_applyQueue ?_
  induction xs generalizing s with
  | nil => exact h
  | cons x xs ih => exact ih (owing_editStep h x)

/-- The solver becomes IDLE with nothing that waits for a solve, or the pending sample begins the next solve. -/
theorem owing_nextSolve {s : State} (h : Owing nothing s) (hq : s.table.queue = []) (hw : s.solver.waiting = []) :
    Owing nothing (nextSolve s) := by
  unfold nextSolve
  split
  · exact ⟨h.ports, h.edits, h.flags, fun hi => nomatch hi⟩
  · rename_i hx
    exact ⟨h.ports, h.edits, h.flags, fun _ => ⟨hq, hw, hx⟩⟩

theorem owing_completeSolve {s : State} (h : Owing nothing s) (o : CompletionOrder) (l : Latch) (p : PoseResult)
    (e : EvalResult) (a : AidsResult) : Owing nothing (completeSolve o l p e a s) := by
  have served : Owing nothing (serveFlags (handOffs o l p e a s)) := owing_serveFlags (h.quiet (quiet_handOffs o l p e a s))
  refine owing_nextSolve (owing_applyEdits o.edits served) (applyQueue_queue _) ?_
  obtain ⟨g, v, hs⟩ := (editsOnly_applyEdits o.edits (serveFlags (handOffs o l p e a s))).solver
  rw [hs, serveFlags_spec]

/-! ## The solve's stages and the timers -/

theorem quiet_stageEvaluate (l : Latch) (p : PoseResult) (s : State) : Quiet s (stageEvaluate l p s) := by
  have table : ∀ pts, (withFloorLimit pts s.table).queue = s.table.queue := by
    intro pts
    unfold withFloorLimit
    split
    · split <;> rfl
    · rfl
  unfold stageEvaluate
  split
  · exact .of_ports (hq := table _) (hs := fun hi => nomatch hi)
  · exact .of_ports (hs := fun hi => nomatch hi)

/-- The command answers a state that keeps the queues. -/
def Keeps (c : Instr) (s : State) : Prop := ∃ t, exec c s = .next t ∧ Owing nothing t

theorem keeps_stagePose {s : State} (h : Owing nothing s) : Keeps .stagePose s := by
  simp only [Keeps, exec, execStagePose]
  split
  · exact ⟨_, rfl, h.quiet (.of_ports (hs := fun hi => nomatch hi))⟩
  · exact ⟨s, rfl, h⟩

theorem keeps_stageEvaluate {s : State} (h : Owing nothing s) : Keeps .stageEvaluate s := by
  simp only [Keeps, exec, execStageEvaluate]
  split
  · exact ⟨_, rfl, h.quiet (quiet_stageEvaluate _ _ s)⟩
  · exact ⟨s, rfl, h⟩

theorem keeps_stageAids {s : State} (h : Owing nothing s) : Keeps .stageAids s := by
  simp only [Keeps, exec, execStageAids]
  split
  · exact ⟨_, rfl, h.quiet (.of_ports (hs := fun hi => nomatch hi))⟩
  · exact ⟨s, rfl, h⟩

theorem keeps_solveCompletion {s : State} (h : Owing nothing s) (o : CompletionOrder) : Keeps (.solveCompletion o) s := by
  simp only [Keeps, exec, execSolveCompletion]
  split
  · exact ⟨_, rfl, owing_completeSolve h o _ _ _ _⟩
  · exact ⟨s, rfl, h⟩

theorem keeps_staleTimerExpiry {s : State} (h : Owing nothing s) : Keeps .staleTimerExpiry s := by
  simp only [Keeps, exec, execStaleTimerExpiry]
  split
  · exact ⟨s, rfl, h⟩
  · split
    · exact ⟨_, rfl, h.quiet ((quiet_elapse _ s).trans (quiet_sampleLoss _ _))⟩
    · exact ⟨s, rfl, h⟩

theorem keeps_idleTimerExpiry {s : State} (h : Owing nothing s) : Keeps .idleTimerExpiry s := by
  simp only [Keeps, exec, execIdleTimerExpiry]
  split
  · exact ⟨s, rfl, h⟩
  · exact ⟨_, rfl, h.quiet ((quiet_elapse _ s).trans (quiet_ladderEvent _ _ _))⟩

theorem keeps_shutdownTimerExpiry {s : State} (h : Owing nothing s) : Keeps .shutdownTimerExpiry s := by
  simp only [Keeps, exec, execShutdownTimerExpiry]
  split
  · exact ⟨s, rfl, h⟩
  · exact ⟨_, rfl, h.quiet ((quiet_elapse _ s).trans (quiet_retarget _ _))⟩

theorem keeps_durationExpiry {s : State} (h : Owing nothing s) : Keeps .durationExpiry s := by
  have expire : ∀ t, Quiet t (expireActive t) := by
    intro t
    unfold expireActive
    split
    · exact quiet_ladderEvent _ _ t
    · exact .refl t
  simp only [Keeps, exec, execDurationExpiry]
  split
  · exact ⟨s, rfl, h⟩
  · exact ⟨_, rfl, h.quiet ((quiet_elapse _ s).trans (expire _))⟩

theorem keeps_waitLimitExpiry {s : State} (h : Owing nothing s) (src : Source) : Keeps (.waitLimitExpiry src) s := by
  simp only [Keeps, exec, execWaitLimitExpiry]
  split
  · exact ⟨s, rfl, h⟩
  · exact ⟨_, rfl, h.quiet .of_ports⟩

theorem keeps_outputPeriodExpiry {s : State} (h : Owing nothing s) : Keeps .outputPeriodExpiry s := by
  simp only [Keeps, exec, execOutputPeriodExpiry]
  split
  · exact ⟨s, rfl, h⟩
  · exact ⟨_, rfl, h.quiet ((quiet_elapse _ s).trans (quiet_transferOutput _))⟩

theorem keeps_cabViewExpiry {s : State} (h : Owing nothing s) : Keeps .cabViewExpiry s := by
  simp only [Keeps, exec, execCabViewExpiry]
  split
  · exact ⟨s, rfl, h⟩
  · exact ⟨_, rfl, h.quiet ((quiet_elapse _ s).trans (quiet_sendCabView _))⟩

/-! ## The store, resets and the image load -/

theorem keeps_saveTimerExpiry {s : State} (h : Owing nothing s) : Keeps .saveTimerExpiry s := by
  simp only [Keeps, exec, execSaveTimerExpiry]
  split
  · exact ⟨s, rfl, h⟩
  · exact ⟨_, rfl, h.quiet (quiet_triggerSave _).behind⟩

theorem keeps_saveRecordReadback {s : State} (h : Owing nothing s) (mismatch : Bool) :
    Keeps (.saveRecordReadback mismatch) s := by
  have write : ∀ v r, Quiet s (writeBack mismatch v r s) := by
    intro v r
    unfold writeBack spoilRecord
    dsimp only
    split
    · split <;> exact .of_ports
    · exact .of_ports
  simp only [Keeps, exec, execSaveRecordReadback]
  split
  · split
    · exact ⟨_, rfl, h.quiet (write _ _)⟩
    · exact ⟨s, rfl, h⟩
  · exact ⟨s, rfl, h⟩

/-- After a reset every queue is empty. -/
theorem owing_loadingState (image : Image) (pending : List Instr) : Owing nothing (loadingState image pending) where
  ports l := by cases l <;> exact ⟨Nat.zero_le _, Nat.zero_le _, rfl, fun h => nomatch h⟩
  edits := Nat.zero_le _
  flags := Nat.zero_le _
  idle _ := ⟨rfl, rfl, rfl⟩

theorem keeps_saveCompletion {s : State} (h : Owing nothing s) : Keeps .saveCompletion s := by
  have done : ∀ v, Quiet s (sendSaveDone v s) := by
    intro v
    unfold sendSaveDone
    split
    · exact quiet_sendNotice _ _ s
    · exact .refl s
  have after : ∀ v, Owing nothing (afterSave v (sendSaveDone v s)) := by
    intro v
    unfold afterSave
    split
    · exact owing_loadingState _ _
    · split
      · exact (h.quiet (done v)).quiet .of_ports
      · exact (h.quiet (done v)).quiet .of_ports
  simp only [Keeps, exec, execSaveCompletion]
  split
  · split
    · exact ⟨_, rfl, after _⟩
    · exact ⟨s, rfl, h⟩
  · exact ⟨s, rfl, h⟩

/-- The node numbers are no queue (R179). -/
theorem owing_readNodes {s : State} (h : Owing nothing s) : Owing nothing (readNodes s) := by
  refine ⟨fun l => ?_, h.edits, h.flags, h.idle⟩
  cases l <;> exact (h.ports _).congr rfl rfl rfl rfl

theorem owing_examineRecord {s : State} (h : Owing nothing s) (r : RecordId) : Owing nothing (examineRecord r s) := by
  have raised : Owing nothing (if failsCheck s.store.image r then raiseStoreFault .load r s else s) := by
    split
    · exact h.quiet .of_ports
    · exact h
  unfold examineRecord
  dsimp only
  split
  · exact (owing_readNodes raised).quiet .of_ports
  · exact raised.quiet .of_ports

theorem keeps_loadRecordExamined {s : State} (h : Owing nothing s) : Keeps .loadRecordExamined s := by
  simp only [Keeps, exec, execLoadRecordExamined]
  split
  · exact ⟨_, rfl, owing_examineRecord h _⟩
  · exact ⟨s, rfl, h⟩

theorem quiet_completeLoad (s : State) : Quiet s (completeLoad s) := by
  have records : Quiet s (loadRecords s) := .of_ports
  have schedule : ∀ t, Quiet t (loadSchedule t) := fun t =>
    have requested : ∀ u, Quiet u { u with ladder := { u.ladder with service := serviceWanted u.items } } := fun _ =>
      .of_ports
    (Quiet.foldl quiet_announceFault (List.range Config.itemCount)
      { t with items := t.store.image.items.map (loadItem t.duty)
               ring := resetRing (goodOr ⟨0, 0⟩ t.store.image.watermark) }).behind.trans (requested _)
  have outputs : ∀ t, Quiet t (enterWaiting (loadOutput (loadLadder (loadEvaluator t)))) := fun _ => .of_ports
  exact (records.trans (schedule _)).trans (outputs _)

theorem keeps_loadCompletion {s : State} (h : Owing nothing s) : Keeps .loadCompletion s := by
  simp only [Keeps, exec, execLoadCompletion]
  split
  · exact ⟨_, rfl, h.quiet (quiet_completeLoad s)⟩
  · exact ⟨s, rfl, h⟩

/-! ## The commands that the bus brings -/

theorem keeps_frameReceived {s : State} (h : Owing nothing s) (l : Link) (f : RxFrame) : Keeps (.frameReceived l f) s := by
  simp only [Keeps, exec, execFrameReceived]
  split
  · exact ⟨_, rfl, owing_receiveFrame h l f⟩
  · exact ⟨s, rfl, h⟩

theorem keeps_frameTransmitted {s : State} (h : Owing nothing s) (l : Link) : Keeps (.frameTransmitted l) s := by
  simp only [Keeps, exec, execFrameTransmitted]
  split
  · exact ⟨_, rfl, owing_frameTransmitted h l ‹_›⟩
  · exact ⟨s, rfl, h⟩

theorem keeps_busOff {s : State} (h : Owing nothing s) (l : Link) : Keeps (.busOff l) s := by
  simp only [Keeps, exec, execBusOff]
  split
  · exact ⟨_, rfl, owing_busOff h l⟩
  · exact ⟨s, rfl, h⟩

theorem keeps_sample {s : State} (h : Owing nothing s) (l : Link) : Keeps (.sample l) s := by
  cases l with
  | ml => exact ⟨_, rfl, owing_takeSampleFrame h .ml⟩
  | cl => exact ⟨_, rfl, owing_sampleRefused h (by decide)⟩
  | sl => exact ⟨_, rfl, owing_sampleRefused h (by decide)⟩

/-- A flag request on another link than SL is not permitted, so it never joins the wait list there. -/
theorem owing_flagRequest {s : State} (h : Owing nothing s) (l : Link) {me : Instr} {r : Request}
    {serve : Link → Payload → State → State} (hs : Serves .sl (serve .sl))
    (ht : requestNamed me = some (some r)) (hp : permitted r l = true → l = .sl) :
    Owing nothing (takeRequest me l (serve l) s) := by
  refine h.takeRequest fun f r' t hf hr hq ho => ?_
  obtain rfl : r = r' := by simpa [takerOf_named (hf ▸ ht)] using hr
  obtain rfl := hp hq
  exact hs f.data t ho

/-! ## Every command -/

/-- Every command keeps the queues. -/
theorem exec_keeps {s : State} (h : Owing nothing s) (c : Instr) : Keeps c s :=
  match c with
  | .powerOnReset _ => ⟨_, rfl, owing_loadingState _ _⟩
  | .loadRecordExamined => keeps_loadRecordExamined h
  | .loadCompletion => keeps_loadCompletion h
  | .frameReceived l f => keeps_frameReceived h l f
  | .frameTransmitted l => keeps_frameTransmitted h l
  | .busOff l => keeps_busOff h l
  | .busOffRecovery l => ⟨_, rfl, owing_busOffRecovery h l⟩
  | .unknownRequest l => ⟨_, rfl, owing_unknownRequest h l⟩
  | .sample l => keeps_sample h l
  | .stagePose => keeps_stagePose h
  | .stageEvaluate => keeps_stageEvaluate h
  | .stageAids => keeps_stageAids h
  | .solveCompletion o => keeps_solveCompletion h o
  | .staleTimerExpiry => keeps_staleTimerExpiry h
  | .idleTimerExpiry => keeps_idleTimerExpiry h
  | .shutdownTimerExpiry => keeps_shutdownTimerExpiry h
  | .durationExpiry => keeps_durationExpiry h
  | .waitLimitExpiry src => keeps_waitLimitExpiry h src
  | .outputPeriodExpiry => keeps_outputPeriodExpiry h
  | .cabViewExpiry => keeps_cabViewExpiry h
  | .saveTimerExpiry => keeps_saveTimerExpiry h
  | .saveRecordReadback mismatch => keeps_saveRecordReadback h mismatch
  | .saveCompletion => keeps_saveCompletion h
  | .keyOff l => ⟨_, rfl, h.request (serves_keyOff l)⟩
  | .regenDemandPlace l => ⟨_, rfl, h.request (serves_regen l)⟩
  | .regenDemandWithdraw l => ⟨_, rfl, h.request (serves_regen l)⟩
  | .statusQuery l => ⟨_, rfl, h.request (serves_statusQuery l)⟩
  | .identify l => ⟨_, rfl, h.request (serves_identify l)⟩
  | .setMode l => ⟨_, rfl, h.request (serves_setMode l)⟩
  | .setModeOff l => ⟨_, rfl, h.request (serves_setMode l)⟩
  | .touchIdleOn l => ⟨_, rfl, h.request (serves_touchIdle l)⟩
  | .touchIdleOff l => ⟨_, rfl, h.request (serves_touchIdle l)⟩
  | .zoneEditWrite l => ⟨_, rfl, h.request (serves_zoneEdit l)⟩
  | .zoneEditDelete l => ⟨_, rfl, h.request (serves_zoneEdit l)⟩
  | .zoneEditSuspend l => ⟨_, rfl, h.request (serves_zoneEdit l)⟩
  | .zoneEditResume l => ⟨_, rfl, h.request (serves_zoneEdit l)⟩
  | .setGradeSet l => ⟨_, rfl, h.request (serves_setGrade l)⟩
  | .setGradeClear l => ⟨_, rfl, h.request (serves_setGrade l)⟩
  | .ackItem l => ⟨_, rfl, h.request (serves_ack l)⟩
  | .ringRead l => ⟨_, rfl, h.request (serves_ringRead l)⟩
  | .ringAdvance l => ⟨_, rfl, h.request (serves_ringAdvance l)⟩
  | .ringClearLost l => ⟨_, rfl, h.request (serves_ringClearLost l)⟩
  | .stampRead l => ⟨_, rfl, h.request (serves_stampRead l)⟩
  | .setGeometry l => ⟨_, rfl, h.request (serves_setGeometry l)⟩
  | .setSolver l => ⟨_, rfl, h.request (serves_setSolver l)⟩
  | .readFlags l => ⟨_, rfl, owing_flagRequest h l (serve := serveReadFlags) serves_readFlags
      rfl (by cases l <;> decide)⟩
  | .clearFlags l => ⟨_, rfl, owing_flagRequest h l (serve := serveClearFlags) serves_clearFlags
      rfl (by cases l <;> decide)⟩
  | .setLadder l => ⟨_, rfl, h.request (serves_setLadder l)⟩
  | .testDemandPlace l => ⟨_, rfl, h.request (serves_test l)⟩
  | .testDemandWithdraw l => ⟨_, rfl, h.request (serves_test l)⟩
  | .setEconomy l => ⟨_, rfl, h.request (serves_setEconomy l)⟩
  | .setAidsThresholds l => ⟨_, rfl, h.request (serves_setAids l)⟩
  | .setAidsTable l => ⟨_, rfl, h.request (serves_setAids l)⟩
  | .itemDefine l => ⟨_, rfl, h.request (serves_itemDefine l)⟩
  | .serviceDone l => ⟨_, rfl, h.request (serves_serviceDone l)⟩
  | .itemRetire l => ⟨_, rfl, h.request (serves_itemRetire l)⟩
  | .accumRead l => ⟨_, rfl, h.request (serves_accumRead l)⟩
  | .accumSet l => ⟨_, rfl, h.request (serves_accumSet l)⟩
  | .accumSetRatedFuel l => ⟨_, rfl, h.request (serves_accumSet l)⟩
  | .setOutputPeriod l => ⟨_, rfl, h.request (serves_setOutputPeriod l)⟩
  | .restart l => ⟨_, rfl, h.request (serves_restart l)⟩

/-- Settles O53: a step is a command, which keeps the queues, or an idle millisecond, which is quiet. -/
theorem stepKeepsQueues : Obligations.StepKeepsQueues := by
  intro s t h hs
  rw [queueInv_iff] at h ⊢
  unfold step at hs
  split at hs
  · cases hs
    exact h.quiet (quiet_elapse 1 s)
  · rename_i c rest _
    have front : Owing nothing { s with pending := rest } := h.quiet .of_ports
    obtain ⟨u, hu, ho⟩ := exec_keeps front c
    rw [hu] at hs
    cases hs
    exact ho

end Sys2Proof.Proofs
end

section
/-! SUPPORT. The idle step, the power-on reset and a link's restart (O3, O4, O9); a SAMPLE's arrival (O11); the flag
requests (O51). -/

namespace Sys2Proof.Proofs

open Sys2Proof Sys2Proof.Machine Sys2Proof.Laws

/-! ## Time, reset, link restart -/

/-- Settles O3: the idle step is one millisecond of `elapse`. -/
theorem idleStepPassesOneMillisecond : Obligations.IdleStepPassesOneMillisecond := by
  intro s h
  have idle : step s = .next (elapse 1 s) := by
    unfold step
    rw [h]
  exact idle

/-- Settles O4: the image the reset leaves is `abandonedImage`, by the moment at which a writing was cut off. -/
theorem powerOnResetEntersLoading : Obligations.PowerOnResetEntersLoading := by
  refine ⟨⟨rfl, rfl, rfl, rfl, rfl, rfl, rfl, rfl, rfl, rfl, rfl, rfl, rfl, rfl, rfl, rfl, rfl, rfl⟩, fun m s => ?_⟩
  refine ⟨abandonedImage m s.store, rfl, ?_, fun r hr => ⟨?_, ?_⟩⟩
  · rintro (rfl | h)
    · rfl
    · cases m <;> simp [abandonedImage, h]
  · rintro rfl
    simp [abandonedImage, hr]
  · rintro rfl
    simp [abandonedImage, hr]

/-- Only a restart of SL touches the flag requests. -/
theorem map_forgetFlag (l : Link) (ws : List WaitingFlag) :
    ws.map (forgetFlag l) = if l = .sl then ws.map fun w => { w with owed := false } else ws := by
  split
  · rename_i h
    simp [forgetFlag, h]
  · rename_i h
    have same : forgetFlag l = id := funext fun w => by simp [forgetFlag, h]
    rw [same, List.map_id]

/-- Settles O9. -/
theorem linkRestartLosesAnswersOnly : Obligations.LinkRestartLosesAnswersOnly := by
  refine fun s l => ⟨fun h => ?_, fun h => ?_, rfl⟩
  · simp only [exec, execBusOff, if_pos h, forgetAnswers, setPort_table, setPort_solver, map_forgetFlag]
    cases l <;> rfl
  · simp [exec, execBusOff, h]

/-- A request answered at once, with nothing done besides. -/
theorem reply_takeHead_only {s : State} {l : Link} (r : Request) (x : Result) (e : Echo)
    (ha : (portOf s l).state = .active) : reply l r x e (takeHead l s) = answer l r x e s := by
  rw [reply_takeHead r x e ha rfl]
  cases l <;> rfl

/-! ## Samples -/

/-- A frame of request SAMPLE is taken by the command SAMPLE. -/
theorem takerOf_of_sample {l : Link} {f : RxFrame} (h : requestOf (frameCode f) = some .sample) :
    takerOf l f = .sample l := by simp [takerOf, h]

/-- A SAMPLE at ML's head that is too short is discarded, and no place is reserved. -/
theorem exec_sample_short {s : State} {f : RxFrame} {b : List Byte} (h : AtHead s .ml f)
    (hf : IsRequest f .sample (.bytes b)) (hb : readSample b = none) :
    exec (.sample .ml) s = .next (dropHead .ml s) := by
  obtain ⟨hc, hd⟩ := isRequest_code hf
  simp [exec, execSample, takeSampleFrame, atHead_frame h, takerOf_of_sample hc, hd, sampleOf, hb]

/-- A SAMPLE at ML's head that is long enough is handed to the intake, and no place is reserved. -/
theorem exec_sample_read {s : State} {f : RxFrame} {b : List Byte} {x : Sample} (h : AtHead s .ml f)
    (hf : IsRequest f .sample (.bytes b)) (hb : readSample b = some x) :
    exec (.sample .ml) s = .next (intakeSample x (dropHead .ml s)) := by
  obtain ⟨hc, hd⟩ := isRequest_code hf
  simp [exec, execSample, takeSampleFrame, atHead_frame h, takerOf_of_sample hc, hd, sampleOf, hb]

/-- A sample that is no duplicate begins a solve while none is in flight. -/
theorem takeSample_idle {s : State} (x : Sample) (h : s.solver.solve = .idle) :
    takeSample x s = { s with
      intake := { s.intake with
        lastTaken := some x.seq, state := .fresh
        stale := some ⟨s.solver.control.staleLimit.toNat, s.solver.control.staleLimit.toNat⟩, restartMark := false }
      solver := { s.solver with solve := .pose (latchOf x s) } } := by
  have idle : solverIdle s = true := decide_eq_true h
  simp only [takeSample, idle, if_true]
  rfl

/-- A sample that is no duplicate goes into the pending slot while a solve is in flight. -/
theorem takeSample_busy {s : State} (x : Sample) (h : s.solver.solve ≠ .idle) :
    takeSample x s = { s with
      intake := { s.intake with
        lastTaken := some x.seq, state := .fresh
        stale := some ⟨s.solver.control.staleLimit.toNat, s.solver.control.staleLimit.toNat⟩, slot := some x } } := by
  have busy : solverIdle s = false := decide_eq_false h
  simp only [takeSample, busy, Bool.false_eq_true, if_false]
  rfl

/-- Settles O11: on ML by the intake's cases, on CL and SL by the second check of R181. -/
theorem sampleBeginsSolve : Obligations.SampleBeginsSolve := by
  constructor
  · intro s f b h hf u limit latch
    refine ⟨fun hb => ?_, fun x hx => ⟨fun hd => ?_, fun hd hi => ?_, fun hd hi => ?_⟩⟩
    · exact exec_sample_short h hf (if_pos hb)
    all_goals rw [exec_sample_read h hf hx]; unfold intakeSample
    · rw [if_pos (by simpa using hd)]
      rfl
    · rw [if_neg (by simpa using hd), takeSample_idle x (by simpa using hi)]
      rfl
    · rw [if_neg (by simpa using hd), takeSample_busy x (by simpa using hi)]
      rfl
  · intro s l f d hl h hf hp
    obtain ⟨hc, hd⟩ := isRequest_code hf
    have refused : permitted .sample l = false := by cases l <;> first | rfl | exact absurd rfl hl
    have ex : exec (.sample l) s = .next (takeRequest (.sample l) l (fun _ s => s) s) := by
      cases l <;> first | rfl | exact absurd rfl hl
    rw [ex, takeRequest_atHead h (takerOf_of_sample hc), if_pos hp, checkRequest, hc]
    simp only [refused, if_true, hd]
    rw [reply_takeHead_only .sample .notPermitted _ h.2.1]

/-! ## Flag requests -/

/-- A flag request's frame is taken by its own command. -/
theorem takerOf_flagForm {c : Instr} {r : Request} {d : Payload} {q : FlagRequest} (h : FlagForm c r d q) (f : RxFrame)
    (hf : IsRequest f r d) : takerOf .sl f = c := by
  obtain ⟨hc, -⟩ := isRequest_code hf
  cases h <;> simp [takerOf, hc]

/-- A flag request that passes its checks is handled by `takeFlag`. -/
theorem exec_flagForm {s : State} {c : Instr} {r : Request} {d : Payload} {q : FlagRequest} (h : FlagForm c r d q)
    (ho : Offered s .sl r d) : exec c s = .next (takeFlag .sl r q d (takeHead .sl s)) := by
  have ht := takerOf_flagForm h
  cases h with
  | read => exact congrArg Host.Outcome.next (takeRequest_offered ho ht)
  | clear named => exact congrArg Host.Outcome.next (takeRequest_offered ho ht)

/-- The code of a flag request's answer is that of its request. -/
theorem flagAnswer_eq {c : Instr} {r : Request} {d : Payload} {q : FlagRequest} (h : FlagForm c r d q) (v : Solver) :
    flagAnswer v q = .response (requestCode r) .ok (flagEcho v q) := by
  cases h <;> rfl

/-- Settles O51. -/
theorem flagRequestsActOrWait : Obligations.FlagRequestsActOrWait := by
  constructor
  · intro s c r d q hq ho
    have active := offered_active ho
    rw [exec_flagForm hq ho, takeFlag]
    refine ⟨fun hi => ?_, fun hi hw => ?_, fun hi hw => ?_⟩
    · rw [if_pos (by simpa [solverIdle] using hi), performFlag_eq, flagAnswer_eq hq]
      exact congrArg Host.Outcome.next (reply_takeHead r .ok _ active rfl)
    · rw [if_neg (by simpa [solverIdle] using hi), queueFlag, if_pos (by simpa [Config.flagCapacity] using hw)]
      rfl
    · rw [if_neg (by simpa [solverIdle] using hi), queueFlag, if_neg (by simpa [Config.flagCapacity] using hw)]
      rw [reply_takeHead_only r .busy _ active]
  · intro s named ho
    have taken : exec (.clearFlags .sl) s = .next (serveClearFlags .sl (.clearFlags named true) (takeHead .sl s)) :=
      congrArg Host.Outcome.next (takeRequest_offered ho fun f hf => by simp [takerOf, (isRequest_code hf).1])
    rw [taken]
    simp only [serveClearFlags, if_true]
    rw [reply_takeHead_only .clearFlags .badField _ (offered_active ho)]

end Sys2Proof.Proofs
end

section
/-! SUPPORT. Stage POSE: the causes and the quality they decide, the last good values (O13), and the slew speed (O14). -/

namespace Sys2Proof.Proofs

open Sys2Proof Sys2Proof.Machine Sys2Proof.Laws

theorem magnitude_eq_abs (x : Int) : magnitude x = |x| := by
  unfold magnitude
  split
  · exact (abs_of_neg ‹_›).symm
  · exact (abs_of_nonneg (by omega)).symm

/-! ## Causes and quality (R15, R16, R17) -/

theorem inRange_iff (r : AngleRange) (x : Int) : inRange r x = true ↔ r.lo ≤ x ∧ x ≤ r.hi := by simp [inRange]

theorem rangeFault_iff (valid : Bool) (r : AngleRange) (x : Int) :
    rangeFault valid r x = true ↔ ¬(valid = true ∧ r.lo ≤ x ∧ x ≤ r.hi) := by
  rw [← inRange_iff]
  cases valid <;> simp [rangeFault]

/-- A channel's last good value is kept as R16 gives. -/
theorem goodAfter_kept (valid : Bool) (r : AngleRange) (x old : Int) : GoodKept valid r x old (goodAfter valid r x old) := by
  unfold GoodKept
  rw [← inRange_iff]
  cases hr : inRange r x <;> cases valid <;> simp [goodAfter, hr]

theorem rangeRaised_iff (g : Geometry) (x : Sample) :
    rangeRaised g x = true ↔
      x.valid.slew = false ∨
        ¬(x.valid.boomPrimary = true ∧ g.boomRange.lo ≤ x.boomPrimary ∧ x.boomPrimary ≤ g.boomRange.hi) ∨
        ¬(x.valid.arm = true ∧ g.armRange.lo ≤ x.arm ∧ x.arm ≤ g.armRange.hi) ∨
        ¬(x.valid.bucket = true ∧ g.bucketRange.lo ≤ x.bucket ∧ x.bucket ≤ g.bucketRange.hi) ∨
        ¬(x.valid.pitch = true ∧ g.pitchRange.lo ≤ x.pitch ∧ x.pitch ≤ g.pitchRange.hi) := by
  simp only [← rangeFault_iff, rangeRaised, Bool.or_eq_true, Bool.not_eq_true']
  tauto

theorem tiltRaised_iff (g : Geometry) (x : Sample) :
    tiltRaised g x = true ↔ x.valid.roll = true ∧ g.rollLimit < |x.roll| := by
  simp [tiltRaised, magnitude_eq_abs]

theorem disagreeRaised_iff (g : Geometry) (x : Sample) :
    disagreeRaised g x = true ↔
      x.valid.boomPrimary = true ∧ x.valid.boomSecondary = true ∧ g.tolerance < |x.boomPrimary - x.boomSecondary| := by
  simp [disagreeRaised, magnitude_eq_abs, and_assoc]

theorem anyMark_bothMarks_iff (c en : CauseMarks) : anyMark (bothMarks c en) = true ↔ EnabledRaised c en := by
  simp [anyMark, bothMarks, EnabledRaised, or_assoc]

theorem anyMark_eq_false_iff (m : CauseMarks) : anyMark m = false ↔ m = noMarks := by
  cases m
  simp [anyMark, noMarks, and_assoc]

/-- The solve is WITHHELD exactly when GEOMETRY or an enabled cause is raised (R17). -/
theorem decideQuality_withheld_iff (c : CauseSet) (en : CauseMarks) :
    decideQuality c en = .withheld ↔ c.geometry = true ∨ EnabledRaised c.marks en := by
  rw [← anyMark_bothMarks_iff, ← Bool.or_eq_true]
  unfold decideQuality
  split
  · simp_all
  · split <;> simp_all

/-- The solve is GOOD exactly when no cause is raised (R17). -/
theorem decideQuality_good_iff (c : CauseSet) (en : CauseMarks) : decideQuality c en = .good ↔ c = noCauses := by
  have empty : c = noCauses ↔ c.geometry = false ∧ anyMark c.marks = false := by
    rw [anyMark_eq_false_iff]
    cases c
    simp [noCauses, and_comm]
  rw [empty]
  unfold decideQuality
  split
  · rename_i h
    rw [Bool.or_eq_true, anyMark_bothMarks_iff] at h
    refine ⟨fun hq => (nomatch hq), fun ⟨hg, hm⟩ => ?_⟩
    rw [anyMark_eq_false_iff] at hm
    simp [hg, hm, EnabledRaised, noMarks] at h
  · rename_i h
    rw [Bool.or_eq_true, not_or] at h
    split <;> simp_all

theorem decideQuality_ne_lost (c : CauseSet) (en : CauseMarks) : decideQuality c en ≠ .lost := by
  unfold decideQuality
  split
  · decide
  · split <;> decide

/-- A solve has exact points exactly when its geometry record is present (R30). -/
theorem exactOf_isNone_iff (l : Latch) (c : Chain) : (exactOf l c).isNone = true ↔ ∀ g, l.geometry ≠ .present g := by
  unfold exactOf
  split <;> simp_all

/-- Settles O13: the new last good values are `goodValues`, and each cause is that of its own test. -/
theorem stagePoseHoldsResults : Obligations.StagePoseHoldsResults := by
  intro s l hs p
  have ex : exec .stagePose s = .next (stagePose l s) := by simp only [exec, execStagePose, hs]
  refine ⟨goodValues (geometryFields l.geometry) l.sample s.solver.good, ex, ?_, ?_, ?_, ?_, ?_, ?_, ?_⟩
  · exact ⟨goodAfter_kept _ _ _ _, goodAfter_kept _ _ _ _, goodAfter_kept _ _ _ _, goodAfter_kept _ _ _ _, rfl, rfl, rfl,
      rangeRaised_iff _ _, tiltRaised_iff _ _, disagreeRaised_iff _ _⟩
  · exact exactOf_isNone_iff l _
  · exact Option.map_eq_none_iff.trans Option.isNone_iff_eq_none.symm
  · intro h
    have none := Option.isNone_iff_eq_none.1 h
    simp only [p, poseResult, causesOf, none, overflowRaised]
  · exact decideQuality_withheld_iff _ _
  · exact decideQuality_good_iff _ _
  · exact decideQuality_ne_lost _ _

/-! ## The slew speed (R31 to R34) -/

/-- A restart solve has no slew change, speed 0 and no STEP (R7). -/
theorem solveSlew_restart {l : Latch} (h : l.restart = true) (psi : Int) : solveSlew l psi = ⟨0, none, 0, false⟩ := by
  simp [solveSlew, h]

/-- The slew part of a solve that has a last solved sample behind it. -/
theorem solveSlew_run {l : Latch} {b : LastSolved} (h : l.restart = false) (hb : l.last = some b) (psi : Int) :
    solveSlew l psi =
      let dt := intervalOf l.sample.timestamp b.timestamp
      let w := formSpeed (geometryFields l.geometry) l.control.staleLimit l.sample.valid.slew dt
        (signedChange psi b.psi) b.omega
      ⟨min dt l.control.staleLimit.toNat, some (signedChange psi b.psi), flushOmega l.control w.1, w.2⟩ := by
  simp [solveSlew, h, hb]

/-- The signed change is the shorter way round (R31). -/
theorem signedChange_spec (new old : Int) :
    -32768 ≤ signedChange new old ∧ signedChange new old ≤ 32767 ∧ (new - old - signedChange new old) % 65536 = 0 := by
  unfold signedChange circle
  omega

/-- The speed before the flush is formed from the change, or held, and STEP is raised where the step check alone holds it
(R32, R33). -/
theorem formSpeed_eq (g : Geometry) (limit : Int) (valid : Bool) (dt : Nat) (change old : Int) :
    formSpeed g limit valid dt change old =
      let formed := Int.tdiv (change * 1000) dt
      let held := decide (valid = false ∨ dt = 0 ∨ limit < dt)
      let far := decide (2 * g.ratedSlew < |formed|)
      (if held || far then old else formed, !held && far) := by
  dsimp only
  unfold formSpeed
  split
  · rename_i hv
    simp [hv]
  · rename_i hv
    split
    · rename_i hd
      simp [hd]
    · rename_i hd
      have free : ¬(valid = false ∨ dt = 0 ∨ limit < dt) := not_or.2 ⟨hv, hd⟩
      rw [decide_eq_false free]
      simp only [truncDiv, magnitude_eq_abs]
      split <;> simp_all

/-- The speed before the flush is the held one, or lies within twice the rated slew speed (R33). -/
theorem formSpeed_bounded {g : Geometry} {old bound : Int} (limit : Int) (valid : Bool) (dt : Nat) (change : Int)
    (ho : |old| ≤ bound) (hg : 2 * g.ratedSlew ≤ bound) : |(formSpeed g limit valid dt change old).1| ≤ bound := by
  rw [formSpeed_eq]
  dsimp only
  split
  · exact ho
  · rename_i h
    have near : ¬(2 * g.ratedSlew < |Int.tdiv (change * 1000) dt|) := by simp_all
    omega

/-- The dead-band flush makes a speed 0 or leaves it (R34). -/
theorem flushOmega_bounded (c : SolverControl) {omega bound : Int} (h : |omega| ≤ bound) : |flushOmega c omega| ≤ bound := by
  unfold flushOmega
  split
  · have := abs_nonneg omega
    simp only [abs_zero]
    omega
  · exact h

/-- Settles O14. -/
theorem slewSpeedFollowsChange : Obligations.SlewSpeedFollowsChange := by
  intro l good p g
  let psi := (settleChain g l.sample good).slew
  have omega_eq : p.omega = (solveSlew l psi).omega := rfl
  have interval_eq : p.interval = (solveSlew l psi).interval := rfl
  have change_eq : p.slewChange = (solveSlew l psi).change := rfl
  have step_eq : p.causes.marks.step = (solveSlew l psi).step := rfl
  have psi_eq : p.psi = psi % 65536 := rfl
  rw [omega_eq, interval_eq, change_eq, step_eq, psi_eq]
  refine ⟨fun hr => ?_, fun b hr hb => ?_, fun hb (hg : (geometryFields l.geometry).ratedSlew ≤ 20000) => ?_⟩
  · rw [solveSlew_restart hr]
    exact ⟨rfl, rfl, rfl, rfl⟩
  · rw [solveSlew_run hr hb]
    obtain ⟨hl, hh, hm⟩ := signedChange_spec psi b.psi
    refine ⟨⟨_, rfl, hl, hh, by omega⟩, rfl, fun c hc => ?_⟩
    obtain rfl : signedChange psi b.psi = c := by simpa using hc
    dsimp only
    rw [formSpeed_eq]
    exact ⟨rfl, by simp only [flushOmega, magnitude_eq_abs]; rfl⟩
  · have run : ∀ b, l.restart = false → l.last = some b → |(solveSlew l psi).omega| ≤ 40000 := fun b hr hl => by
      rw [solveSlew_run hr hl]
      exact flushOmega_bounded _ (formSpeed_bounded _ _ _ _ (hb b hl) (by omega))
    cases hr : l.restart with
    | true => simp [solveSlew_restart hr]
    | false =>
      cases hl : l.last with
      | some b => exact run b hr hl
      | none => simp [solveSlew, hr, hl]

end Sys2Proof.Proofs
end

section
/-! SUPPORT. What re-examining the items does to the rest of the part, and that it reads the items and the ring alone; the
hand-on of the basis values by accumulator (R134, R143). -/

namespace Sys2Proof.Proofs

open Sys2Proof Sys2Proof.Machine Sys2Proof.Laws

/-! ## Operations on the schedule -/

/-- Items and ring are the same in both states. -/
def SameSchedule (s t : State) : Prop := s.items = t.items ∧ s.ring = t.ring

/-- What the schedule's work leaves alone: every block but items, ring, ports and store. -/
structure ScheduleOnly (s t : State) : Prop where
  part : t.part = s.part
  intake : t.intake = s.intake
  solver : t.solver = s.solver
  table : t.table = s.table
  evaluator : t.evaluator = s.evaluator
  aid : t.aid = s.aid
  ladder : t.ladder = s.ladder
  duty : t.duty = s.duty
  output : t.output = s.output
  stamps : t.stamps = s.stamps

/-- An operation on the schedule changes items, ring, ports and store alone, and what it makes of items and ring follows
from items and ring. -/
structure OnSchedule (op : State → State) : Prop where
  only : ∀ s, ScheduleOnly s (op s)
  same : ∀ s t, SameSchedule s t → SameSchedule (op s) (op t)

theorem ScheduleOnly.refl (s : State) : ScheduleOnly s s := ⟨rfl, rfl, rfl, rfl, rfl, rfl, rfl, rfl, rfl, rfl⟩

theorem ScheduleOnly.trans {s t u : State} (h : ScheduleOnly s t) (k : ScheduleOnly t u) : ScheduleOnly s u where
  part := k.part.trans h.part
  intake := k.intake.trans h.intake
  solver := k.solver.trans h.solver
  table := k.table.trans h.table
  evaluator := k.evaluator.trans h.evaluator
  aid := k.aid.trans h.aid
  ladder := k.ladder.trans h.ladder
  duty := k.duty.trans h.duty
  output := k.output.trans h.output
  stamps := k.stamps.trans h.stamps

theorem OnSchedule.id : OnSchedule (fun s => s) := ⟨.refl, fun _ _ h => h⟩

theorem OnSchedule.comp {f g : State → State} (hg : OnSchedule g) (hf : OnSchedule f) : OnSchedule (fun s => g (f s)) :=
  ⟨fun s => (hf.only s).trans (hg.only _), fun s t h => hg.same _ _ (hf.same s t h)⟩

/-- An operand read from items and ring. -/
theorem OnSchedule.reading {α : Type} {op : α → State → State} (h : ∀ a, OnSchedule (op a))
    (k : List Item → Ring → α) : OnSchedule (fun s => op (k s.items s.ring) s) :=
  ⟨fun s => (h _).only s, fun s t hst => by rw [hst.1, hst.2]; exact (h _).same s t hst⟩

theorem OnSchedule.foldl {α : Type} {op : α → State → State} (h : ∀ a, OnSchedule (op a)) (xs : List α) :
    OnSchedule (fun s => xs.foldl (fun t a => op a t) s) := by
  induction xs with
  | nil => exact .id
  | cons x xs ih => exact ih.comp (h x)

/-- A choice made from items and ring. -/
theorem OnSchedule.branch {f g : State → State} (hf : OnSchedule f) (hg : OnSchedule g)
    (c : List Item → Ring → Bool) : OnSchedule (fun s => if c s.items s.ring then f s else g s) := by
  refine .reading (op := fun b s => if b then f s else g s) (fun b => ?_) c
  cases b
  · exact hg
  · exact hf

/-- Items and ring replaced by what a function makes of them. -/
theorem OnSchedule.setting (f : List Item → Ring → List Item) (g : List Item → Ring → Ring) :
    OnSchedule (fun s => { s with items := f s.items s.ring, ring := g s.items s.ring }) :=
  ⟨fun _ => ⟨rfl, rfl, rfl, rfl, rfl, rfl, rfl, rfl, rfl, rfl⟩, fun s t ⟨hi, hr⟩ => by
    constructor <;> simp only [hi, hr]⟩

theorem onSchedule_sendNotice (l : Link) (b : TxBody) : OnSchedule (sendNotice l b) :=
  ⟨fun _ => ⟨by simp, by simp, by simp, by simp, by simp, by simp, by simp, by simp, by simp, by simp⟩, fun _ _ h => by
    simpa [SameSchedule] using h⟩

theorem onSchedule_markDirty (r : RecordId) : OnSchedule (markDirty r) :=
  ⟨fun _ => ⟨by simp, by simp, by simp, by simp, by simp, by simp, by simp, by simp, by simp, by simp⟩, fun _ _ h => by
    simpa [SameSchedule] using h⟩

/-! ## The ring -/

theorem onSchedule_releasePosition (p : Nat) : OnSchedule (fun s => releasePosition s p) :=
  (OnSchedule.reading (op := fun ks s => ks.foldl sendRetired
      { s with items := s.items.map (releaseItem p), ring := { s.ring with slots := s.ring.slots.set p none } })
    (fun ks => (OnSchedule.foldl (fun k => onSchedule_sendNotice .sl (.retireDone k)) ks).comp
      (.setting (fun items _ => items.map (releaseItem p)) fun _ g => { g with slots := g.slots.set p none }))
    fun items _ => retiredBy p items)

theorem onSchedule_releaseFrom (before : Nat) : OnSchedule (releaseFrom before) :=
  .reading (op := fun ps s => ps.foldl releasePosition s) (fun ps => .foldl onSchedule_releasePosition ps)
    fun _ g => releasedPositions g.put before (heldCount g)

theorem onSchedule_dropCab : OnSchedule dropCab :=
  .reading (op := fun n s => releaseFrom n { s with ring := { s.ring with cab := cabDropped s.ring.cab } })
    (fun n => (onSchedule_releaseFrom n).comp (.setting (fun items _ => items) fun _ g => { g with cab := cabDropped g.cab }))
    fun _ g => heldCount g

theorem onSchedule_putNotice (n : Notice) : OnSchedule (putNotice n) :=
  .setting (fun items g => changeAt items n.item (pointAt g.put)) fun _ g =>
    { g with slots := g.slots.set g.put (some n), put := ringPlus g.put 1, cab := oneMore g.cab, service := oneMore g.service }

theorem onSchedule_watermarkTest (r : Reader) : OnSchedule (watermarkTest r) := by
  have told : OnSchedule fun s => sendNotice (linkOfReader r)
      (.ringWatermark r (readerOf s.ring r).unread (readerOf s.ring r).lost)
      { s with ring := setReader r { readerOf s.ring r with armed := false } s.ring } :=
    .reading (op := fun b s => sendNotice (linkOfReader r) b
        { s with ring := setReader r { readerOf s.ring r with armed := false } s.ring })
      (fun b => (onSchedule_sendNotice _ b).comp
        (.setting (fun items _ => items) fun _ g => setReader r { readerOf g r with armed := false } g))
      fun _ g => .ringWatermark r (readerOf g r).unread (readerOf g r).lost
  have tested := told.branch .id fun _ g => decide ((readerOf g r).watermark ≠ 0 ∧ (readerOf g r).armed = true ∧
    (readerOf g r).watermark ≤ (readerOf g r).unread)
  simp only [decide_eq_true_eq] at tested
  exact tested

theorem onSchedule_produceNotice (n : Notice) : OnSchedule (produceNotice n) := by
  have lost : OnSchedule fun s => { s with ring := { s.ring with service := { s.ring.service with lost := true } } } :=
    .setting (fun items _ => items) fun _ g => { g with service := { g.service with lost := true } }
  have written := ((onSchedule_watermarkTest .service).comp (onSchedule_watermarkTest .cab)).comp (onSchedule_putNotice n)
  have cases := lost.branch ((written.comp onSchedule_dropCab).branch written
    fun _ g => decide (Config.ringSize ≤ g.cab.unread)) fun _ g => decide (Config.ringSize ≤ g.service.unread)
  simp only [decide_eq_true_eq] at cases
  exact cases

/-! ## The items -/

theorem onSchedule_setItem (k : Nat) (f : Item → Item) : OnSchedule (fun s => { s with items := changeAt s.items k f }) :=
  .setting (fun items _ => changeAt items k f) fun _ g => g

theorem onSchedule_riseItem (k : Nat) (f : ItemFields) (t : ItemState) (basis : Nat) : OnSchedule (riseItem k f t basis) := by
  have rise := (onSchedule_produceNotice ⟨k, .rise, t, basis, f.severity⟩).comp (onSchedule_setItem k (risen f t basis))
  exact ((onSchedule_markDirty (.item k)).comp rise).branch rise fun _ _ => isDue t && f.acknowledged

theorem onSchedule_repeatItem (k : Nat) (i : Item) (f : ItemFields) (basis : Nat) :
    OnSchedule (repeatItem k i f basis) := by
  unfold repeatItem
  cases i.nextRepeat with
  | none => exact .id
  | some r =>
    dsimp only
    split
    · exact (onSchedule_produceNotice _).comp (onSchedule_setItem k _)
    · exact .id

/-- What re-examining item `k` does, from the item as it stands. -/
def reexamineAs (a : Accum) (basis k : Nat) (i : Item) (s : State) : State :=
  match i.fields, stateRank i.state with
  | some f, some old =>
    if f.basis = a then
      match stateRank (stateAt f (progress f basis)) with
      | some new => if old < new then riseItem k f (stateAt f (progress f basis)) basis s else repeatItem k i f basis s
      | none => s
    else s
  | _, _ => s

theorem reexamineItem_eq (a : Accum) (basis : Nat) (s : State) (k : Nat) :
    reexamineItem a basis s k = reexamineAs a basis k (s.items.getD k emptyItem) s := rfl

theorem onSchedule_reexamineItem (a : Accum) (basis k : Nat) : OnSchedule (fun s => reexamineItem a basis s k) := by
  simp only [reexamineItem_eq]
  refine .reading (op := fun i s => reexamineAs a basis k i s) (fun i => ?_) fun items _ => items.getD k emptyItem
  unfold reexamineAs
  split
  · split
    · split
      · split
        · exact onSchedule_riseItem _ _ _ _
        · exact onSchedule_repeatItem _ _ _ _
      · exact .id
    · exact .id
  · exact .id

theorem onSchedule_reexamine (a : Accum) (basis : Nat) : OnSchedule (reexamine a basis) :=
  .foldl (fun k => onSchedule_reexamineItem a basis k) (List.range Config.itemCount)

end Sys2Proof.Proofs
end

section
/-! SUPPORT. The hand-offs of R11: the accumulators and the schedule, and the ladder, in either order (R115, R127, R134,
R145). -/

namespace Sys2Proof.Proofs

open Sys2Proof Sys2Proof.Machine Sys2Proof.Laws

/-! ## What every hand-off leaves alone -/

/-- The hand-offs of accumulators and ladder leave these blocks alone; of the output set they change the ladder's group of
the pending set (R72, R118). -/
structure HandsOver (s t : State) : Prop where
  part : t.part = s.part
  intake : t.intake = s.intake
  solver : t.solver = s.solver
  table : t.table = s.table
  evaluator : t.evaluator = s.evaluator
  aid : t.aid = s.aid
  stamps : t.stamps = s.stamps
  output : ∃ x y z, t.output = { s.output with pending := { s.output.pending with target := x, next := y, advise := z } }

theorem HandsOver.trans {s t u : State} (h : HandsOver s t) (k : HandsOver t u) : HandsOver s u where
  part := k.part.trans h.part
  intake := k.intake.trans h.intake
  solver := k.solver.trans h.solver
  table := k.table.trans h.table
  evaluator := k.evaluator.trans h.evaluator
  aid := k.aid.trans h.aid
  stamps := k.stamps.trans h.stamps
  output := by
    obtain ⟨x, y, z, ho⟩ := h.output
    obtain ⟨x', y', z', ko⟩ := k.output
    exact ⟨x', y', z', by rw [ko, ho]⟩

/-- The ladder's group of the pending set holds what the ladder says, and the ladder's target and next rpm are those of
R118. -/
structure LadderWritten (s : State) : Prop where
  target : s.ladder.target = formTarget s.ladder
  next : s.ladder.next = formNext s.ladder
  pendingTarget : s.output.pending.target = s.ladder.target
  pendingNext : s.output.pending.next = s.ladder.next
  pendingAdvise : s.output.pending.advise = s.ladder.advise

theorem ladderWritten_retarget (L : Ladder) (s : State) : LadderWritten (retarget L s) := ⟨rfl, rfl, rfl, rfl, rfl⟩

/-! ## The accumulators and the schedule -/

/-- Integration changes values and remainders, not what was last handed on. -/
theorem integrate_handed (h : DutyHandoff) (d : Duty) : (integrate h d).handed = d.handed := by
  have engine : ∀ d, (addEngineTime h d).handed = d.handed := fun d => by unfold addEngineTime; split <;> rfl
  have load : ∀ d, (addLoadTime h d).handed = d.handed := fun d => by unfold addLoadTime; split <;> rfl
  have fuel : ∀ d, (addFuel h d).handed = d.handed := fun d => by unfold addFuel; split <;> rfl
  have slew : ∀ d, (addSlew h d).handed = d.handed := fun d => by
    unfold addSlew
    split
    · split <;> rfl
    · rfl
  have sample : (integrateSample h d).handed = d.handed := by
    unfold integrateSample
    split
    · rfl
    · rw [slew, fuel, load, engine]
  have tonnes : ∀ kg d, (addTonnes kg d).handed = d.handed := fun kg d => by unfold addTonnes; split <;> rfl
  unfold integrate addCompleted
  split
  · exact sample
  · exact sample
  · exact (tonnes _ _).trans sample

/-- One basis value told to the schedule when it differs from the one last handed on, the accumulators standing at `d`. -/
def tellBasis (d : Duty) (handed : Six Nat) (s : State) (b : Accum) : State :=
  if basisOf d b = accGet handed b then s else (List.range 24).foldl (reexamineItem b (basisOf d b)) s

/-- Telling a basis value looks at items and ring alone. -/
theorem tellBasis_same (d : Duty) (handed : Six Nat) (b : Accum) {s t : State} (h : SameSchedule s t) :
    SameSchedule (tellBasis d handed s b) (tellBasis d handed t b) := by
  unfold tellBasis
  split
  · exact h
  · exact (onSchedule_reexamine b (basisOf d b)).same s t h

/-- The state with other basis values recorded as handed on. -/
def withHanded (handed : Six Nat) (s : State) : State := { s with duty := { s.duty with handed := handed } }

/-- Handing one basis value on tells it to the schedule and records it; nothing else changes but ports and store. -/
theorem handOnBasis_spec (s : State) (a : Accum) :
    (∃ handed, ScheduleOnly (withHanded handed s) (handOnBasis s a) ∧ accGet handed a = basisOf s.duty a ∧
      ∀ b, b ≠ a → accGet handed b = accGet s.duty.handed b) ∧
    SameSchedule (handOnBasis s a) (tellBasis s.duty s.duty.handed s a) := by
  unfold handOnBasis tellBasis basisNow
  by_cases h : basisOf s.duty a = accGet s.duty.handed a
  · rw [if_pos h, if_pos h]
    exact ⟨⟨s.duty.handed, .refl s, h.symm, fun _ _ => rfl⟩, rfl, rfl⟩
  · rw [if_neg h, if_neg h]
    have told := onSchedule_reexamine a (basisOf s.duty a)
    exact ⟨⟨_, told.only _, accGet_accSet _ _ _, fun b hb => accGet_accSet_ne _ _ _ _ hb⟩,
      told.same (recordHanded a (basisOf s.duty a) s) s ⟨rfl, rfl⟩⟩

/-- Handing basis values on, one after another, tells each to the schedule as it stands against what was handed on
before. -/
theorem handOn_spec (as : List Accum) (distinct : as.Nodup) (handed : Six Nat) {s x : State} (h : SameSchedule s x)
    (ha : ∀ a ∈ as, accGet s.duty.handed a = accGet handed a) :
    SameSchedule (as.foldl handOnBasis s) (as.foldl (tellBasis s.duty handed) x) ∧
      ∃ after, ScheduleOnly (withHanded after s) (as.foldl handOnBasis s) ∧
        ∀ b, accGet after b = if b ∈ as then basisOf s.duty b else accGet s.duty.handed b := by
  induction as generalizing s x with
  | nil => exact ⟨h, s.duty.handed, .refl s, fun b => by simp⟩
  | cons a as ih =>
    obtain ⟨⟨mid, only, hm, hn⟩, same⟩ := handOnBasis_spec s a
    obtain ⟨hx, fresh⟩ : a ∉ as ∧ as.Nodup := List.nodup_cons.1 distinct
    have duty : (handOnBasis s a).duty = { s.duty with handed := mid } := only.duty
    have told : SameSchedule (handOnBasis s a) (tellBasis s.duty handed x a) := by
      have agree : tellBasis s.duty s.duty.handed s a = tellBasis s.duty handed s a := by
        unfold tellBasis
        rw [ha a List.mem_cons_self]
      obtain ⟨hi, hr⟩ := tellBasis_same s.duty handed a h
      rw [agree] at same
      exact ⟨same.1.trans hi, same.2.trans hr⟩
    have unchanged : ∀ b ∈ as, accGet (handOnBasis s a).duty.handed b = accGet handed b := by
      intro b hb
      rw [duty, ← ha b (List.mem_cons_of_mem _ hb)]
      exact hn b fun hba => hx (hba ▸ hb)
    obtain ⟨rest, after, frame, values⟩ := ih fresh told unchanged
    rw [duty] at rest values
    refine ⟨rest, after, ?_, fun b => ?_⟩
    · have rebased : ScheduleOnly (withHanded after s) (withHanded after (handOnBasis s a)) :=
        ⟨only.part, only.intake, only.solver, only.table, only.evaluator, only.aid, only.ladder,
          by simp only [withHanded, duty], only.output, only.stamps⟩
      exact rebased.trans frame
    · rw [values b]
      by_cases hba : b = a
      · subst hba
        simpa [hx] using hm
      · simp only [List.mem_cons, hba, false_or]
        split
        · rfl
        · exact hn b hba

/-- The schedule's SERVICE request reaches the ladder: nothing changes when the ladder holds it already, else the ladder
takes it and is written (R145). -/
theorem syncService_spec (s : State) :
    HandsOver s (syncService s) ∧ (LadderWritten s → LadderWritten (syncService s)) ∧
      (∃ x y, (syncService s).ladder = { s.ladder with service := serviceWanted s.items, target := x, next := y }) ∧
      SameSchedule (syncService s) s ∧ (syncService s).duty = s.duty := by
  unfold syncService serviceRequest
  split
  · rename_i h
    exact ⟨⟨rfl, rfl, rfl, rfl, rfl, rfl, rfl, _, _, _, rfl⟩, id, ⟨s.ladder.target, s.ladder.next, by rw [← h]⟩,
      ⟨rfl, rfl⟩, rfl⟩
  · exact ⟨⟨rfl, rfl, rfl, rfl, rfl, rfl, rfl, _, _, _, rfl⟩, fun _ => ladderWritten_retarget _ s, ⟨_, _, rfl⟩,
      ⟨rfl, rfl⟩, rfl⟩

/-- The accumulators' hand-off whole (R127, R134, R145): the accumulators take the solve, each changed basis value is told
to the schedule as it stood, and its SERVICE request reaches the ladder. -/
theorem dutyHandoff_spec (h : DutyHandoff) {s x : State} (hx : SameSchedule s x) :
    HandsOver s (dutyHandoff h s) ∧ (LadderWritten s → LadderWritten (dutyHandoff h s)) ∧
      (∃ y z, (dutyHandoff h s).ladder =
        { s.ladder with service := serviceWanted (dutyHandoff h s).items, target := y, next := z }) ∧
      SameSchedule (dutyHandoff h s) (allAccums.foldl (tellBasis (integrate h s.duty) s.duty.handed) x) ∧
      (∃ handed, (dutyHandoff h s).duty = { integrate h s.duty with handed := handed } ∧
        ∀ a, accGet handed a = basisOf (integrate h s.duty) a) := by
  let taken : State := { s with duty := integrate h s.duty }
  obtain ⟨told, after, only, values⟩ := handOn_spec allAccums (by decide) s.duty.handed (s := taken) hx
    fun a _ => by simp only [taken, integrate_handed]
  obtain ⟨kept, written, ⟨y, z, ladder⟩, ⟨items, ring⟩, duty⟩ := syncService_spec (handOnAll taken)
  have hand : HandsOver s (handOnAll taken) :=
    ⟨only.part, only.intake, only.solver, only.table, only.evaluator, only.aid, only.stamps, _, _, _, only.output⟩
  have ladder' : (handOnAll taken).ladder = s.ladder := only.ladder
  have output' : (handOnAll taken).output = s.output := only.output
  refine ⟨hand.trans kept, fun w => written ?_, ⟨y, z, ?_⟩, ⟨items.trans told.1, ring.trans told.2⟩, after, ?_, fun a => ?_⟩
  · obtain ⟨a, b, c, d, e⟩ := w
    rw [← ladder', ← output'] at *
    exact ⟨a, b, c, d, e⟩
  · have wanted : serviceWanted (dutyHandoff h s).items = serviceWanted (handOnAll taken).items := congrArg _ items
    rw [wanted, ← ladder']
    exact ladder
  · exact duty.trans only.duty
  · rw [values a, if_pos (by cases a <;> decide)]

/-! ## The ladder's hand-off (R111) -/

/-- What steps 1 to 4 of R111 leave alone. -/
theorem takeHandoff_eq (h : Handoff) (L : Ladder) :
    takeHandoff h L = { L with
      thermal := thermalStage L.economy L.thermal h.coolant h.oil
      warmup := warmupAfter L.economy L.warmup h.coolant
      records := (takeHandoff h L).records, counter := (takeHandoff h L).counter
      idleTimer := (takeHandoff h L).idleTimer } := by
  have travel : ∀ L, actTravel h.travel L = { L with
      records := (actTravel h.travel L).records, counter := (actTravel h.travel L).counter } := by
    intro L
    unfold actTravel
    split
    · split <;> rfl
    · rfl
  have idle : ∀ L, actAutoIdle h L = { L with
      records := (actAutoIdle h L).records, idleTimer := (actAutoIdle h L).idleTimer } := by
    intro L
    unfold actAutoIdle
    split
    · rfl
    · split
      · split <;> rfl
      · rfl
  have boost : ∀ L, actBoost h.boost L = { L with
      records := (actBoost h.boost L).records, counter := (actBoost h.boost L).counter } := by
    intro L
    unfold actBoost
    split
    · split <;> rfl
    · rfl
    · rfl
  unfold takeHandoff
  rw [boost, idle, travel]

/-- One event at the ladder that removes nothing itself: the records are those R106 leaves, watch, target and next are
re-formed and written, and the ports only send. -/
theorem ladderEvent_eq (L : Ladder) (s : State) :
    ∃ timer advise x y, ladderEvent L [] s =
      { s with
        ports := (ladderEvent L [] s).ports
        ladder := { L with records := (settle L.records).1, shutdownTimer := timer, advise := advise, target := x, next := y }
        output := { s.output with pending := { s.output.pending with target := x, next := y, advise := advise } } } ∧
      (ladderEvent L [] s).ladder.target = formTarget (ladderEvent L [] s).ladder ∧
      (ladderEvent L [] s).ladder.next = formNext (ladderEvent L [] s).ladder := by
  obtain ⟨event, -⟩ := ladderEvent_spec L [] s
  have watched := watchShutdown_spec (autoIdleActive s.ladder) { L with records := (settle L.records).1 }
  dsimp only at event
  rw [watched] at event
  refine ⟨_, _, _, _, event, ?_, ?_⟩ <;> rw [event] <;> rfl

/-- What the ladder's hand-off makes of the part, from the ladder as steps 1 to 4 of R111 leave it. -/
theorem ladderHandoff_spec (h : Handoff) (s : State) :
    HandsOver s (ladderHandoff h s) ∧ LadderWritten (ladderHandoff h s) ∧ SameSchedule (ladderHandoff h s) s ∧
      (ladderHandoff h s).duty = s.duty ∧
      ∃ timer advise x y, (ladderHandoff h s).ladder = { takeHandoff h s.ladder with
        records := (settle (takeHandoff h s.ladder).records).1
        shutdownTimer := timer, advise := advise, target := x, next := y } := by
  obtain ⟨timer, advise, x, y, event, target, next⟩ := ladderEvent_eq (takeHandoff h s.ladder) s
  have whole : ladderHandoff h s = ladderEvent (takeHandoff h s.ladder) [] s := rfl
  rw [whole]
  refine ⟨?_, ⟨target, next, ?_, ?_, ?_⟩, ?_, ?_, timer, advise, x, y, ?_⟩ <;> rw [event]
  · exact ⟨rfl, rfl, rfl, rfl, rfl, rfl, rfl, _, _, _, rfl⟩
  · exact ⟨rfl, rfl⟩

end Sys2Proof.Proofs
end

section
/-! SUPPORT. The ladder's records over one event: which sources have one, and with which values, after placements,
withdrawals and R106. -/

namespace Sys2Proof.Proofs

open Sys2Proof Sys2Proof.Machine Sys2Proof.Laws

/-! ## Sources without a record -/

theorem demandOf_eq_none_iff {src : Source} {ds : List Demand} : demandOf src ds = none ↔ ∀ d ∈ ds, d.source ≠ src := by
  simp [demandOf]

theorem mem_withoutSource {src : Source} {ds : List Demand} {d : Demand} :
    d ∈ withoutSource src ds ↔ d ∈ ds ∧ d.source ≠ src := by simp [withoutSource]

/-- A withdrawal leaves the records of the other sources. -/
theorem demandOf_withoutSource_ne {src k : Source} (ds : List Demand) (h : k ≠ src) :
    demandOf k (withoutSource src ds) = demandOf k ds := by
  unfold demandOf withoutSource
  rw [List.find?_filter]
  congr 1
  funext d
  by_cases hd : d.source = k <;> simp [hd, h]

/-- R106 brings no source into the ladder. -/
theorem settle_absent {src : Source} {ds : List Demand} (h : demandOf src ds = none) :
    demandOf src (settle ds).1 = none := by
  rw [demandOf_eq_none_iff] at h ⊢
  intro y hy
  obtain ⟨x, hx, hs, -⟩ := mem_settle hy
  exact hs ▸ h x hx

/-! ## Placements -/

/-- Renumbering changes stamps alone (R103). -/
theorem mem_beforePlacing {ds : List Demand} {counter : Nat} {y : Demand} (h : y ∈ (beforePlacing ds counter).1) :
    ∃ x ∈ ds, y = { x with stamp := y.stamp } := by
  unfold beforePlacing at h
  split at h
  · obtain ⟨x, hx, rfl⟩ := List.mem_map.1 h
    exact ⟨x, hx, rfl⟩
  · exact ⟨y, h, rfl⟩

theorem beforePlacing_keeps {ds : List Demand} (counter : Nat) {x : Demand} (h : x ∈ ds) :
    ∃ y ∈ (beforePlacing ds counter).1, y = { x with stamp := y.stamp } := by
  unfold beforePlacing
  split
  · exact ⟨_, List.mem_map_of_mem h, rfl⟩
  · exact ⟨x, h, rfl⟩

/-- A record after a placement is the one placed, or an old one of another source with perhaps another stamp. -/
theorem mem_placeDemand {src : Source} {origin : DemandOrigin} {rpm : Int} {duration wait : Option Nat} {L : Ladder}
    {y : Demand} (h : y ∈ (placeDemand src origin rpm duration wait L).records) :
    (y.source = src ∧ y.rpm = rpm ∧ y.duration = duration ∧ y.origin = origin ∧ y.expired = false) ∨
      ∃ x ∈ L.records, x.source ≠ src ∧ y = { x with stamp := y.stamp } := by
  rcases (mem_insertDemand _ _ _ _).1 h with rfl | h
  · exact .inl ⟨rfl, rfl, rfl, rfl, rfl⟩
  · obtain ⟨x, hx, hy⟩ := mem_beforePlacing h
    obtain ⟨hm, hs⟩ := mem_withoutSource.1 hx
    exact .inr ⟨x, hm, hs, hy⟩

/-- The source placed has a record. -/
theorem placeDemand_present (src : Source) (origin : DemandOrigin) (rpm : Int) (duration wait : Option Nat) (L : Ladder) :
    ∃ d ∈ (placeDemand src origin rpm duration wait L).records, d.source = src :=
  ⟨_, (mem_insertDemand _ _ _ _).2 (.inl rfl), rfl⟩

/-- A placement keeps the records of the other sources, their stamps apart. -/
theorem placeDemand_keeps {src : Source} (origin : DemandOrigin) (rpm : Int) (duration wait : Option Nat) {L : Ladder}
    {x : Demand} (h : x ∈ L.records) (hs : x.source ≠ src) :
    ∃ y ∈ (placeDemand src origin rpm duration wait L).records, y = { x with stamp := y.stamp } := by
  obtain ⟨y, hy, he⟩ := beforePlacing_keeps L.counter (mem_withoutSource.2 ⟨h, hs⟩)
  exact ⟨y, (mem_insertDemand _ _ _ _).2 (.inr hy), he⟩

/-- A placement brings no other source into the ladder. -/
theorem placeDemand_absent {src k : Source} (origin : DemandOrigin) (rpm : Int) (duration wait : Option Nat) {L : Ladder}
    (h : demandOf k L.records = none) (hk : k ≠ src) :
    demandOf k (placeDemand src origin rpm duration wait L).records = none := by
  rw [demandOf_eq_none_iff] at h ⊢
  intro y hy
  obtain ⟨hs, -⟩ | ⟨x, hx, -, he⟩ := mem_placeDemand hy
  · rw [hs]; exact hk.symm
  · rw [he]; exact h x hx

/-! ## A record the part itself placed -/

/-- The records of `src` in the ladder, of which there is one, hold an internal demand of this rpm and duration. -/
structure Placed (src : Source) (rpm : Int) (duration : Option Nat) (ds : List Demand) : Prop where
  present : ∃ d ∈ ds, d.source = src
  each : ∀ d ∈ ds, d.source = src → d.rpm = rpm ∧ d.duration = duration ∧ d.origin = .internal ∧ d.expired = false

theorem Placed.place (src : Source) (rpm : Int) (duration wait : Option Nat) (L : Ladder) :
    Placed src rpm duration (placeDemand src .internal rpm duration wait L).records where
  present := placeDemand_present src .internal rpm duration wait L
  each d hd hs := by
    obtain ⟨-, hr, hn, ho, he⟩ | ⟨x, -, hx, hy⟩ := mem_placeDemand hd
    · exact ⟨hr, hn, ho, he⟩
    · rw [hy] at hs
      exact absurd hs hx

theorem Placed.placeOther {src k : Source} {rpm : Int} {duration : Option Nat} {L : Ladder}
    (h : Placed src rpm duration L.records) (hk : src ≠ k) (origin : DemandOrigin) (r : Int) (n w : Option Nat) :
    Placed src rpm duration (placeDemand k origin r n w L).records where
  present := by
    obtain ⟨d, hd, hs⟩ := h.present
    obtain ⟨y, hy, he⟩ := placeDemand_keeps origin r n w hd (hs ▸ hk)
    exact ⟨y, hy, by rw [he]; exact hs⟩
  each d hd hs := by
    obtain ⟨hk', -⟩ | ⟨x, hx, -, hy⟩ := mem_placeDemand hd
    · exact absurd (hs.symm.trans hk') hk
    · rw [hy] at hs ⊢
      exact h.each x hx hs

theorem Placed.withdrawOther {src k : Source} {rpm : Int} {duration : Option Nat} {ds : List Demand}
    (h : Placed src rpm duration ds) (hk : src ≠ k) : Placed src rpm duration (withoutSource k ds) where
  present := by
    obtain ⟨d, hd, hs⟩ := h.present
    exact ⟨d, mem_withoutSource.2 ⟨hd, hs ▸ hk⟩, hs⟩
  each d hd := h.each d (mem_withoutSource.1 hd).1

/-- R106 keeps a record that has a duration left or none. -/
theorem Placed.settle {src : Source} {rpm : Int} {duration : Option Nat} {ds : List Demand}
    (h : Placed src rpm duration ds) (hn : duration ≠ some 0) :
    ∃ d, demandOf src (settle ds).1 = some d ∧ d.rpm = rpm ∧ d.duration = duration ∧ d.origin = .internal := by
  obtain ⟨x, hx, hs⟩ := h.present
  obtain ⟨-, hd, -, he⟩ := h.each x hx hs
  obtain ⟨y, hy, hys⟩ := settle_keeps hx he (hd ▸ hn)
  obtain ⟨d, found⟩ := Option.isSome_iff_exists.1 (demandOf_isSome.2 ⟨y, hy, hys.trans hs⟩)
  obtain ⟨hm, hsrc⟩ := demandOf_some found
  obtain ⟨z, hz, zs, -, zr, zn, zo, -⟩ := mem_settle hm
  obtain ⟨r, n, o, -⟩ := h.each z hz (zs.symm.trans hsrc)
  exact ⟨d, found, zr.trans r, zn.trans n, zo.trans o⟩

/-! ## Steps 1 to 4 of R111 -/

/-- The ladder before step 2 of R111: THERMAL and WARMUP re-formed. -/
def reformed (h : Handoff) (L : Ladder) : Ladder :=
  { L with thermal := thermalStage L.economy L.thermal h.coolant h.oil
           warmup := warmupAfter L.economy L.warmup h.coolant }

theorem takeHandoff_steps (h : Handoff) (L : Ladder) :
    takeHandoff h L = actBoost h.boost (actAutoIdle h (actTravel h.travel (reformed h L))) := rfl

theorem actAutoIdle_records (h : Handoff) (L : Ladder) :
    (actAutoIdle h L).records = if h.lever || h.travel then withoutSource .autoIdle L.records else L.records := by
  unfold actAutoIdle
  split
  · rfl
  · split
    · split <;> rfl
    · rfl

/-- Step 3 keeps what the other sources hold. -/
theorem Placed.autoIdle {src : Source} {rpm : Int} {duration : Option Nat} {L : Ladder}
    (p : Placed src rpm duration L.records) (hs : src ≠ .autoIdle) (h : Handoff) :
    Placed src rpm duration (actAutoIdle h L).records := by
  rw [actAutoIdle_records]
  split
  · exact p.withdrawOther hs
  · exact p

/-- Step 4 keeps what the other sources hold. -/
theorem Placed.boost {src : Source} {rpm : Int} {duration : Option Nat} {L : Ladder}
    (p : Placed src rpm duration L.records) (hs : src ≠ .digBoost) (b : Option BoostRequest) :
    Placed src rpm duration (actBoost b L).records := by
  unfold actBoost
  split
  · split
    · exact p
    · exact p.placeOther hs _ _ _ _
  · exact p.withdrawOther hs
  · exact p

theorem withoutSource_absent {src k : Source} {ds : List Demand} (h : demandOf k ds = none) :
    demandOf k (withoutSource src ds) = none := by
  rw [demandOf_eq_none_iff] at h ⊢
  exact fun d hd => h d (mem_withoutSource.1 hd).1

theorem actAutoIdle_absent {src : Source} {L : Ladder} (a : demandOf src L.records = none) (h : Handoff) :
    demandOf src (actAutoIdle h L).records = none := by
  rw [actAutoIdle_records]
  split
  · exact withoutSource_absent a
  · exact a

theorem actBoost_absent {src : Source} {L : Ladder} (a : demandOf src L.records = none) (hs : src ≠ .digBoost)
    (b : Option BoostRequest) : demandOf src (actBoost b L).records = none := by
  unfold actBoost
  split
  · split
    · exact a
    · exact placeDemand_absent _ _ _ _ a hs
  · exact withoutSource_absent a
  · exact a

theorem actTravel_absent {src : Source} {L : Ladder} (a : demandOf src L.records = none) (hs : src ≠ .travel)
    (b : Bool) : demandOf src (actTravel b L).records = none := by
  unfold actTravel
  split
  · split
    · exact placeDemand_absent _ _ _ _ a hs
    · exact a
  · exact withoutSource_absent a

/-- R112: without the travel flag the ladder holds no TRAVEL record. -/
theorem takeHandoff_travel_off {h : Handoff} (L : Ladder) (ht : h.travel = false) :
    demandOf .travel (takeHandoff h L).records = none := by
  rw [takeHandoff_steps]
  refine actBoost_absent (actAutoIdle_absent ?_ h) (by decide) _
  simp [ht, actTravel, withdrawDemand]

/-- R112: with the travel flag a TRAVEL record is placed where there is none. -/
theorem takeHandoff_travel_on {h : Handoff} {L : Ladder} (ht : h.travel = true) (ha : demandOf .travel L.records = none) :
    Placed .travel L.config.travel none (takeHandoff h L).records := by
  rw [takeHandoff_steps]
  refine Placed.boost (Placed.autoIdle ?_ (by decide) h) (by decide) _
  have absent : demandOf .travel (reformed h L).records = none := ha
  simp only [ht, actTravel, absent, if_true]
  exact .place .travel L.config.travel none none (reformed h L)

/-- R113: lever or travel withdraws AUTO_IDLE. -/
theorem takeHandoff_moving {h : Handoff} (L : Ladder) (hm : h.lever = true ∨ h.travel = true) :
    demandOf .autoIdle (takeHandoff h L).records = none := by
  rw [takeHandoff_steps]
  refine actBoost_absent ?_ (by decide) _
  have moving : (h.lever || h.travel) = true := by simpa using hm
  rw [actAutoIdle_records, if_pos moving]
  exact demandOf_withoutSource _ _

/-- R113: the idle timer after step 3 of R111. -/
theorem takeHandoff_idleTimer (h : Handoff) (L : Ladder) :
    (takeHandoff h L).idleTimer =
      if h.lever = true ∨ h.travel = true ∨ h.phase ≠ .idle ∨ h.operator = false then none
      else if demandOf .autoIdle L.records = none ∧ L.idleTimer = none then some (secondsToMs L.economy.idleDelay)
      else L.idleTimer := by
  have boost : ∀ M, (actBoost h.boost M).idleTimer = M.idleTimer := by
    intro M
    unfold actBoost
    split
    · split <;> rfl
    · rfl
    · rfl
  rw [takeHandoff_steps, boost]
  by_cases moving : h.lever = true ∨ h.travel = true
  · have flags : (h.lever || h.travel) = true := by simpa using moving
    rw [actAutoIdle, if_pos flags, if_pos (by tauto)]
  · obtain ⟨hl, ht⟩ : h.lever = false ∧ h.travel = false := by simpa using moving
    have still : actTravel h.travel (reformed h L) = withdrawDemand .travel (reformed h L) := by simp [actTravel, ht]
    have same : demandOf .autoIdle (withdrawDemand .travel (reformed h L)).records = demandOf .autoIdle L.records :=
      demandOf_withoutSource_ne L.records (by decide)
    have timer : (withdrawDemand .travel (reformed h L)).idleTimer = L.idleTimer := rfl
    have delay : (withdrawDemand .travel (reformed h L)).economy = L.economy := rfl
    rw [still]
    unfold actAutoIdle autoIdleCondition
    rw [same, timer, delay, hl, ht]
    by_cases phase : h.phase = .idle
    · cases h.operator with
      | false => simp
      | true =>
        by_cases wait : demandOf .autoIdle L.records = none ∧ L.idleTimer = none
        · simp [phase, wait]
        · have running : ((demandOf .autoIdle L.records).isNone && L.idleTimer.isNone) = false := by
            rw [Bool.eq_false_iff]
            simpa using wait
          simp [phase, running, wait, timer]
    · simp [phase]

/-- R115: a withdrawal leaves no DIG_BOOST. -/
theorem takeHandoff_boost_withdraw {h : Handoff} (L : Ladder) (hb : h.boost = some .withdraw) :
    demandOf .digBoost (takeHandoff h L).records = none := by
  rw [takeHandoff_steps, hb]
  exact demandOf_withoutSource _ _

/-- The service request at step 4 of R111 is the one the ladder holds. -/
theorem service_before_boost (h : Handoff) (L : Ladder) :
    (actAutoIdle h (actTravel h.travel (reformed h L))).service = L.service ∧
      (actAutoIdle h (actTravel h.travel (reformed h L))).config = L.config := by
  unfold actAutoIdle actTravel
  constructor <;> (repeat' split) <;> rfl

/-- R115: DIG_BOOST is placed while the SERVICE ceiling is absent. -/
theorem takeHandoff_boost_place {h : Handoff} {L : Ladder} (hb : h.boost = some .place) (hs : L.service = false) :
    Placed .digBoost L.config.boost (some (secondsToMs L.config.boostTime)) (takeHandoff h L).records := by
  obtain ⟨service, config⟩ := service_before_boost h L
  rw [takeHandoff_steps, hb]
  simp only [actBoost, service, hs, Bool.false_eq_true, if_false]
  rw [config]
  exact .place _ _ _ _ _

/-- R115: while the SERVICE ceiling is present DIG_BOOST is not placed. -/
theorem takeHandoff_boost_barred {h : Handoff} {L : Ladder} (hb : h.boost = some .place) (hs : L.service = true)
    (ha : demandOf .digBoost L.records = none) : demandOf .digBoost (takeHandoff h L).records = none := by
  obtain ⟨service, -⟩ := service_before_boost h L
  rw [takeHandoff_steps, hb]
  simp only [actBoost, service, hs, if_true]
  have absent : demandOf .digBoost (reformed h L).records = none := ha
  exact actAutoIdle_absent (actTravel_absent absent (by decide) _) h

end Sys2Proof.Proofs
end

section
/-! SUPPORT. Sample loss (O29): the fallen-back record of the evaluator, and the ladder without DIG_BOOST. -/

namespace Sys2Proof.Proofs

open Sys2Proof Sys2Proof.Machine Sys2Proof.Laws

/-! ## The record of an unusable pose (R69) -/

theorem firstConstraint_eq_none {t : EnvTable} {a : Actuator} (h : ∀ n ≤ 32, constrains t n a = false) :
    firstConstraint t a = none := by
  refine List.find?_eq_none.2 fun n hn => ?_
  have := h n (Nat.le_of_lt_succ (List.mem_range.1 hn))
  simp [this]

theorem firstConstraint_eq_some {t : EnvTable} {a : Actuator} {n : Nat} (hn : n ≤ 32) (h : constrains t n a = true)
    (before : ∀ k < n, constrains t k a = false) : firstConstraint t a = some n :=
  List.find?_range_eq_some.2 ⟨h, List.mem_range.2 (Nat.lt_succ_of_le hn), fun k hk => by simp [before k hk]⟩

theorem unusableRecord_spec (t : EnvTable) (g : Geometry) : IsUnusableRecord t g (unusableRecord t g) := by
  refine ⟨rfl, fun a => ⟨fun h => ?_, fun n hn h before => ?_⟩⟩
  · simp [unusableRecord, firstConstraint_eq_none h]
  · simp [unusableRecord, firstConstraint_eq_some hn h before]

/-! ## The ladder without a source -/

/-- The records after a source is withdrawn are old ones of other sources. -/
theorem mem_settle_withoutSource {src : Source} {ds : List Demand} {y : Demand}
    (h : y ∈ (settle (withoutSource src ds)).1) :
    ∃ x ∈ ds, x.source = y.source ∧ x.level = y.level ∧ x.rpm = y.rpm ∧ x.duration = y.duration ∧ x.origin = y.origin := by
  obtain ⟨x, hx, hs, hl, hr, hn, ho, -⟩ := mem_settle h
  exact ⟨x, (mem_withoutSource.1 hx).1, hs.symm, hl.symm, hr.symm, hn.symm, ho.symm⟩

/-- A record of another source that has not expired outlives a withdrawal. -/
theorem settle_withoutSource_stays {src : Source} {ds : List Demand} {x : Demand} (hx : x ∈ ds) (hs : x.source ≠ src)
    (he : x.expired = false) (hn : x.duration ≠ some 0) : demandOf x.source (settle (withoutSource src ds)).1 ≠ none := by
  obtain ⟨y, hy, hys⟩ := settle_keeps (mem_withoutSource.2 ⟨hx, hs⟩) he hn
  exact fun none => demandOf_eq_none_iff.1 none y hy hys

/-! ## Sample loss -/

/-- The part as the ladder finds it at sample loss. -/
def lostState (limit : Nat) (s : State) : State :=
  returnAid (evaluatorSampleLoss (raiseLoss limit (losePose (staleIntake s))))

/-- Settles O29: after the time has passed, intake, pose, evaluator and aid unit fall back, then the ladder has one event
that withdraws DIG_BOOST. -/
theorem staleExpiryDeclaresSampleLoss : Obligations.StaleExpiryDeclaresSampleLoss := by
  intro s k hk hi loss
  have ex : exec .staleTimerExpiry s = .next (sampleLoss k.limit (elapse k.remaining s)) := by
    have idle : solverIdle s = true := decide_eq_true hi
    simp only [exec, execStaleTimerExpiry, hk, idle, if_true]
  let u := lostState k.limit (elapse k.remaining s)
  have records : u.ladder.records = (elapse k.remaining s).ladder.records := rfl
  obtain ⟨timer, advise, x, y, event, target, next⟩ :=
    ladderEvent_eq { withdrawDemand .digBoost u.ladder with idleTimer := none } u
  have loses : sampleLoss k.limit (elapse k.remaining s) =
      ladderEvent { withdrawDemand .digBoost u.ladder with idleTimer := none } [] u := rfl
  have quiet : Quiet s (sampleLoss k.limit (elapse k.remaining s)) := (quiet_elapse _ s).trans (quiet_sampleLoss _ _)
  refine ⟨_, ex, ?_⟩
  have sends := quiet.onlySend
  rw [loses] at sends ⊢
  have form : (ladderEvent { withdrawDemand .digBoost u.ladder with idleTimer := none } [] u).ladder.records =
      (settle (withoutSource .digBoost (elapse k.remaining s).ladder.records)).1 := by rw [event]; rfl
  refine ⟨?_, ?_, ?_, ?_, ?_, ?_, ?_, ?_, ?_, ?_, ?_, ?_, ?_, ?_, ?_, ?_, ?_, ?_, ?_, sends⟩
  · rw [event]; rfl
  · rw [event]; rfl
  · rw [event]; rfl
  · rw [event]; exact unusableRecord_spec s.table (geometryFields s.solver.geometry)
  · rw [event]; rfl
  · rw [event]; rfl
  · rw [event]; rfl
  · rw [event]; rfl
  · rw [event]; rfl
  · rw [form]; exact settle_absent (demandOf_withoutSource _ _)
  · rw [event]
  · intro d hd _
    rw [form] at hd
    exact mem_settle_withoutSource hd
  · intro d hd hs he hn
    rw [form]
    exact settle_withoutSource_stays hd hs he hn
  · rw [← target, ← next, event]; rfl
  · rw [event]; rfl
  · rw [event]; rfl
  · rw [event]; rfl
  · rw [event]; rfl
  · rw [event]; rfl

end Sys2Proof.Proofs
end

section
/-! SUPPORT. The completion of a solve: the pose it publishes (O27), and its hand-offs and finish (O28). -/

namespace Sys2Proof.Proofs

open Sys2Proof Sys2Proof.Machine Sys2Proof.Laws

/-! ## The accumulators' and the ladder's hand-offs, in either order (R115) -/

/-- A ladder after the hand-off of a solve, from the ladder that took it (R111). -/
structure LadderTook (k : Handoff) (before after : Ladder) : Prop where
  records : after.records = (settle (takeHandoff k before).records).1
  idleTimer : after.idleTimer = (takeHandoff k before).idleTimer
  thermal : after.thermal = thermalStage before.economy before.thermal k.coolant k.oil
  warmup : after.warmup = warmupAfter before.economy before.warmup k.coolant
  config : after.config = before.config
  economy : after.economy = before.economy

/-- Both hand-offs: the accumulators take the solve, the schedule is told each changed basis value, and the ladder takes
the solve with the SERVICE request that the order gives it. -/
structure HandedOff (o : CompletionOrder) (h : DutyHandoff) (k : Handoff) (s t : State) : Prop where
  kept : HandsOver s t
  written : LadderWritten t
  schedule : ∀ x, SameSchedule s x → SameSchedule t (allAccums.foldl (tellBasis (integrate h s.duty) s.duty.handed) x)
  duty : ∃ handed, t.duty = { integrate h s.duty with handed := handed } ∧
    ∀ a, accGet handed a = basisOf (integrate h s.duty) a
  service : t.ladder.service = serviceWanted t.items
  ladder : ∃ before, LadderTook k before t.ladder ∧
    before = { s.ladder with
      service := if o.ladderFirst then s.ladder.service else t.ladder.service
      target := before.target, next := before.next }

/-- What the ladder's hand-off makes of the ladder. -/
theorem ladderTook_of {k : Handoff} {before after : Ladder} {timer : Option Nat} {advise : Bool} {x y : Int}
    (h : after = { takeHandoff k before with
      records := (settle (takeHandoff k before).records).1
      shutdownTimer := timer, advise := advise, target := x, next := y }) :
    LadderTook k before after ∧ after.service = before.service := by
  have same := takeHandoff_eq k before
  rw [h]
  refine ⟨⟨rfl, rfl, ?_, ?_, ?_, ?_⟩, ?_⟩ <;> rw [same]

theorem handOff_spec (o : CompletionOrder) (l : Latch) (p : PoseResult) (a : AidsResult) (s : State) :
    HandedOff o (dutyOf l p a) (ladderOf l a s.aid.phase) s (handOff o l p a s) := by
  unfold handOff
  cases first : o.ladderFirst with
  | true =>
    rw [if_pos rfl]
    obtain ⟨kept, written, ⟨items, ring⟩, duty, timer, advise, x, y, ladder⟩ :=
      ladderHandoff_spec (ladderOf l a s.aid.phase) s
    obtain ⟨took, -⟩ := ladderTook_of ladder
    have told : ∀ x, SameSchedule s x → SameSchedule (ladderHandoff (ladderOf l a s.aid.phase) s) x := fun x hx =>
      ⟨items.trans hx.1, ring.trans hx.2⟩
    obtain ⟨kept', written', ⟨x', y', ladder'⟩, -, hand⟩ := dutyHandoff_spec (dutyOf l p a) (told s ⟨rfl, rfl⟩)
    rw [duty] at hand
    refine ⟨kept.trans kept', written' written, fun x hx => ?_, hand, ?_, s.ladder, ?_, ?_⟩
    · have same := (dutyHandoff_spec (dutyOf l p a) (told x hx)).2.2.2.1
      rwa [duty] at same
    · rw [ladder']
    · obtain ⟨r, i, t, w, c, e⟩ := took
      rw [ladder']
      exact ⟨r, i, t, w, c, e⟩
    · rw [first, if_pos rfl]
  | false =>
    rw [if_neg Bool.false_ne_true]
    obtain ⟨kept, -, ⟨x', y', ladder'⟩, -, hand⟩ := dutyHandoff_spec (dutyOf l p a) (s := s) ⟨rfl, rfl⟩
    have schedule : ∀ x, SameSchedule s x → SameSchedule (dutyHandoff (dutyOf l p a) s)
        (allAccums.foldl (tellBasis (integrate (dutyOf l p a) s.duty) s.duty.handed) x) := fun x hx =>
      (dutyHandoff_spec (dutyOf l p a) hx).2.2.2.1
    obtain ⟨kept', written, ⟨items, ring⟩, duty, timer, advise, x, y, ladder⟩ :=
      ladderHandoff_spec (ladderOf l a s.aid.phase) (dutyHandoff (dutyOf l p a) s)
    obtain ⟨took, service⟩ := ladderTook_of ladder
    refine ⟨kept.trans kept', written, fun x hx => ?_, duty ▸ hand, ?_, _, took, ?_⟩
    · obtain ⟨hi, hr⟩ := schedule x hx
      exact ⟨items.trans hi, ring.trans hr⟩
    · rw [service, ladder', items]
    · rw [first, if_neg Bool.false_ne_true, service, ladder']

/-! ## Around the hand-offs -/

/-- The pending set as the evaluator writes it (R72). -/
def evaluatedSet (l : Latch) (p : PoseResult) (s : State) : OutputSet :=
  { s.output.pending with
    seq := some l.sample.seq, scales := s.evaluator.record.scales, binding := s.evaluator.record.binding
    fallback := s.evaluator.record.fallback, quality := p.quality, phase := s.aid.phase }

/-- An expiry of the period timer is due between the evaluator's and the ladder's write (R165, log 11). -/
def ExpiryFalls (o : CompletionOrder) (s : State) : Prop := o.expiryBetween = true ∧ s.output.periodTimer = some 0

/-- The part as accumulators and ladder find it: the pose published, the evaluation written, a due expiry taken. -/
def beforeHandOff (o : CompletionOrder) (l : Latch) (p : PoseResult) (a : AidsResult) (s : State) : State :=
  expiryBetween o (writeEvaluation l p (publishPose l p a s))

theorem beforeHandOff_eq (o : CompletionOrder) (l : Latch) (p : PoseResult) (a : AidsResult) (s : State) :
    beforeHandOff o l p a s = { publishPose l p a s with
      ports := (beforeHandOff o l p a s).ports, output := (beforeHandOff o l p a s).output } := by
  unfold beforeHandOff expiryBetween
  split
  · unfold transferOutput sendPeriodic
    rfl
  · rfl

/-- No expiry falls between: only the evaluation is written. -/
theorem beforeHandOff_output_quiet {o : CompletionOrder} {s : State} (l : Latch) (p : PoseResult) (a : AidsResult)
    (h : ¬ExpiryFalls o s) : (beforeHandOff o l p a s).output = { s.output with pending := evaluatedSet l p s } := by
  have none : (o.expiryBetween && expiryDue (writeEvaluation l p (publishPose l p a s))) = false := by
    rw [Bool.eq_false_iff, Ne, Bool.and_eq_true, expiryDue, decide_eq_true_iff]
    exact h
  rw [beforeHandOff, expiryBetween, none]
  rfl

/-- An expiry falls between: the set with the evaluation becomes active, and the period timer restarts. -/
theorem beforeHandOff_output_due {o : CompletionOrder} {s : State} (l : Latch) (p : PoseResult) (a : AidsResult)
    (h : ExpiryFalls o s) : (beforeHandOff o l p a s).output = { s.output with
      pending := evaluatedSet l p s, active := evaluatedSet l p s, periodTimer := some s.output.period } := by
  obtain ⟨ho, hp⟩ := h
  have due : (o.expiryBetween && expiryDue (writeEvaluation l p (publishPose l p a s))) = true := by
    simp [ho, expiryDue, writeEvaluation, publishPose, hp]
  rw [beforeHandOff, expiryBetween, due]
  simp only [if_true, transferOutput, sendPeriodic_output]
  rfl

/-- After the hand-offs the part enters RUNNING, and the stamps reach their slots (R11, R175). -/
theorem afterHandOff_eq (l : Latch) (p : PoseResult) (e : EvalResult) (a : AidsResult) (t : State) :
    enterRunning (raiseStamps l p e a t) = { raiseStamps l p e a t with
      part := if t.part = .waiting then .running else t.part } := by
  unfold enterRunning
  have part : (raiseStamps l p e a t).part = t.part := rfl
  rw [part]
  split <;> rfl

/-! ## The finish (R12) -/

/-- The part after the finish of a solve, from the part after the hand-offs. -/
structure FinishedFrom (m t : State) : Prop where
  part : t.part = m.part
  aid : t.aid = m.aid
  ladder : t.ladder = m.ladder
  duty : t.duty = m.duty
  items : t.items = m.items
  ring : t.ring = m.ring
  stamps : t.stamps = m.stamps
  output : ∃ x y z, t.output = { m.output with pending := { m.output.pending with scales := x, binding := y, fallback := z } }
  solver : ∃ g v, t.solver = { m.solver with
    solve := t.solver.solve, geometry := g, good := v, waiting := []
    sticky := m.solver.waiting.foldl (fun x w => stickyFrom x w.request) m.solver.sticky }
  queue : t.table.queue = []
  idle : m.intake.slot = none → t.solver.solve = .idle ∧ t.intake = m.intake
  next : ∀ x, m.intake.slot = some x →
    t.solver.solve = .pose (Latch.mk x m.solver.control t.solver.geometry m.aid.phase m.intake.restartMark
      m.intake.lastSolved) ∧ t.intake = { m.intake with slot := none, restartMark := false }

/-- Step 3 of R12 changes solve state and intake alone. -/
theorem nextSolve_eq (s : State) :
    nextSolve s = { s with
      solver := { s.solver with solve := (nextSolve s).solver.solve }, intake := (nextSolve s).intake } := by
  unfold nextSolve
  split <;> rfl

/-- Without a pending sample the solver becomes IDLE. -/
theorem nextSolve_none {s : State} (h : s.intake.slot = none) :
    nextSolve s = { s with solver := { s.solver with solve := .idle } } := by simp only [nextSolve, h]

/-- The pending sample begins the next solve. -/
theorem nextSolve_some {s : State} {x : Sample} (h : s.intake.slot = some x) :
    nextSolve s = { s with
      solver := { s.solver with solve := .pose (latchOf x s) }
      intake := { s.intake with slot := none, restartMark := false } } := by
  simp only [nextSolve, h]
  rfl

theorem finish_spec (xs : List EditStep) (m : State) : FinishedFrom m (nextSolve (applyEdits xs (serveFlags m))) := by
  have flags := serveFlags_spec m
  have edits := editsOnly_applyEdits xs (serveFlags m)
  have last := nextSolve_eq (applyEdits xs (serveFlags m))
  obtain ⟨g, v, solver⟩ := edits.solver
  obtain ⟨x, y, z, output⟩ := edits.output
  have solver' : (applyEdits xs (serveFlags m)).solver = { m.solver with
      geometry := g, good := v, waiting := []
      sticky := m.solver.waiting.foldl (fun x w => stickyFrom x w.request) m.solver.sticky } := by rw [solver, flags]
  have intake : (applyEdits xs (serveFlags m)).intake = m.intake := edits.intake.trans (by rw [flags])
  have aid : (applyEdits xs (serveFlags m)).aid = m.aid := edits.aid.trans (by rw [flags])
  refine ⟨?_, ?_, ?_, ?_, ?_, ?_, ?_, ⟨x, y, z, ?_⟩, ⟨g, v, ?_⟩, ?_, fun h => ?_, fun w h => ?_⟩
  · rw [last]; exact edits.part.trans (by rw [flags])
  · rw [last]; exact aid
  · rw [last]; exact edits.ladder.trans (by rw [flags])
  · rw [last]; exact edits.duty.trans (by rw [flags])
  · rw [last]; exact edits.items.trans (by rw [flags])
  · rw [last]; exact edits.ring.trans (by rw [flags])
  · rw [last]; exact edits.stamps.trans (by rw [flags])
  · rw [last]; exact output.trans (by rw [flags])
  · rw [last]; simp only [solver']
  · rw [last]; exact applyQueue_queue _
  · rw [nextSolve_none (intake ▸ h)]
    exact ⟨rfl, intake⟩
  · rw [nextSolve_some (x := w) (intake ▸ h)]
    constructor <;> simp only [latchOf, solver', intake, aid]

/-- With no edit waiting or taken, step 2 of R12 changes nothing. -/
theorem applyEdits_none {s : State} (h : s.table.queue = []) : applyEdits [] s = s := by
  have emptied : { s.table with queue := [] } = s.table := by rw [← h]
  simp only [applyEdits, List.foldl_nil, applyQueue, h, emptied]

end Sys2Proof.Proofs
end

section
/-! SUPPORT. SOLVE_COMPLETION as a whole: what it publishes (O27), what it hands off and how it finishes (O28). -/

namespace Sys2Proof.Proofs

open Sys2Proof Sys2Proof.Machine Sys2Proof.Laws

/-! ## A completion in its two halves -/

theorem exec_solveCompletion {s : State} {l : Latch} {p : PoseResult} {e : EvalResult} {a : AidsResult}
    (h : s.solver.solve = .finished l p e a) (o : CompletionOrder) :
    exec (.solveCompletion o) s = .next (nextSolve (applyEdits o.edits (serveFlags (handOffs o l p e a s)))) := by
  simp only [exec, execSolveCompletion, h]
  rfl

/-- The part after the hand-offs of R11, from the part before them. -/
structure HandOffsFrom (o : CompletionOrder) (l : Latch) (p : PoseResult) (e : EvalResult) (a : AidsResult)
    (s m : State) : Prop where
  part : m.part = if s.part = .waiting then .running else s.part
  intake : m.intake = s.intake
  table : m.table = s.table
  evaluator : m.evaluator = s.evaluator
  aid : m.aid = s.aid
  solver : m.solver = (publishPose l p a s).solver
  stamps : m.stamps = (raiseStamps l p e a s).stamps
  written : LadderWritten m
  service : m.ladder.service = serviceWanted m.items
  schedule : SameSchedule m (allAccums.foldl (tellBasis (integrate (dutyOf l p a) s.duty) s.duty.handed) s)
  duty : ∃ handed, m.duty = { integrate (dutyOf l p a) s.duty with handed := handed } ∧
    ∀ x, accGet handed x = basisOf (integrate (dutyOf l p a) s.duty) x
  ladder : ∃ before, LadderTook (ladderOf l a s.aid.phase) before m.ladder ∧
    before = { s.ladder with
      service := if o.ladderFirst then s.ladder.service else m.ladder.service
      target := before.target, next := before.next }
  output : ∃ x y z, m.output = { (beforeHandOff o l p a s).output with
    pending := { evaluatedSet l p s with target := x, next := y, advise := z } }
  sends : AllOnlySend s m

theorem handOffs_spec (o : CompletionOrder) (l : Latch) (p : PoseResult) (e : EvalResult) (a : AidsResult) (s : State) :
    HandOffsFrom o l p e a s (handOffs o l p e a s) := by
  have start := beforeHandOff_eq o l p a s
  have pending : (beforeHandOff o l p a s).output.pending = evaluatedSet l p s := by
    by_cases h : ExpiryFalls o s
    · rw [beforeHandOff_output_due l p a h]
    · rw [beforeHandOff_output_quiet l p a h]
  have ladder0 : (beforeHandOff o l p a s).ladder = s.ladder := by rw [start]; rfl
  have duty0 : (beforeHandOff o l p a s).duty = s.duty := by rw [start]; rfl
  have aid0 : (beforeHandOff o l p a s).aid = s.aid := by rw [start]; rfl
  have stamps0 : (beforeHandOff o l p a s).stamps = s.stamps := by rw [start]; rfl
  have part0 : (beforeHandOff o l p a s).part = s.part := by rw [start]; rfl
  obtain ⟨kept, written, schedule, duty, service, before, took, hb⟩ := handOff_spec o l p a (beforeHandOff o l p a s)
  rw [aid0] at took
  rw [ladder0] at hb
  rw [duty0] at duty schedule
  obtain ⟨x, y, z, output⟩ := kept.output
  rw [pending] at output
  have whole : handOffs o l p e a s = enterRunning (raiseStamps l p e a (handOff o l p a (beforeHandOff o l p a s))) := rfl
  have sends := (quiet_handOffs o l p e a s).onlySend
  rw [whole, afterHandOff_eq] at sends ⊢
  refine ⟨?_, ?_, ?_, ?_, ?_, ?_, ?_, ?_, service, ?_, duty, ⟨before, took, hb⟩, ⟨x, y, z, output⟩, sends⟩
  · simp only [kept.part, part0]
  · exact kept.intake.trans (by rw [start]; rfl)
  · exact kept.table.trans (by rw [start]; rfl)
  · exact kept.evaluator.trans (by rw [start]; rfl)
  · exact kept.aid.trans aid0
  · exact kept.solver.trans (by rw [start])
  · simp only [raiseStamps, kept.stamps, stamps0]
  · exact ⟨written.target, written.next, written.pendingTarget, written.pendingNext, written.pendingAdvise⟩
  · exact schedule s (by rw [start]; exact ⟨rfl, rfl⟩)

/-! ## The pose (R17, R18, R21) -/

theorem poseAfter_published {l : Latch} {p : PoseResult} {a : AidsResult} {old : PoseRecord}
    (h : p.quality = .good ∨ p.quality = .degraded) :
    poseAfter l p a old =
      { seq := some l.sample.seq, timestamp := some l.sample.timestamp, points := p.points, psi := some p.psi
        omega := some p.omega, quality := p.quality, causes := p.causes, offset := a.offset, cue := a.cue } := by
  have use : usable p.quality = true := by rcases h with h | h <;> rw [h] <;> rfl
  rw [poseAfter, if_pos use]

theorem poseAfter_withheld {l : Latch} {p : PoseResult} {a : AidsResult} {old : PoseRecord} (h : p.quality = .withheld) :
    poseAfter l p a old = { old with quality := .withheld, cue := .none } := by
  have use : ¬usable p.quality = true := by rw [h]; decide
  rw [poseAfter, if_neg use, h]

/-- Settles O27: the hand-offs publish the pose, and the finish touches sticky flags and wait list alone. -/
theorem completionPublishesPose : Obligations.CompletionPublishesPose := by
  intro s o l p e a hs _
  have hand := handOffs_spec o l p e a s
  obtain ⟨g, v, solver⟩ := (finish_spec o.edits (handOffs o l p e a s)).solver
  refine ⟨_, exec_solveCompletion hs o, ?_⟩
  rw [solver, hand.solver]
  exact ⟨poseAfter_published, poseAfter_withheld, rfl, rfl, rfl, rfl, rfl⟩

/-! ## The ladder after the hand-off -/

section
variable {k : Handoff} {before after : Ladder}

theorem LadderTook.travel_off (h : LadderTook k before after) (ht : k.travel = false) :
    demandOf .travel after.records = none := by
  rw [h.records]
  exact settle_absent (takeHandoff_travel_off before ht)

theorem LadderTook.travel_on (h : LadderTook k before after) (ht : k.travel = true)
    (ha : demandOf .travel before.records = none) :
    ∃ d, demandOf .travel after.records = some d ∧ d.rpm = before.config.travel ∧ d.origin = .internal := by
  rw [h.records]
  obtain ⟨d, hd, rpm, -, origin⟩ := (takeHandoff_travel_on ht ha).settle (by decide)
  exact ⟨d, hd, rpm, origin⟩

theorem LadderTook.moving (h : LadderTook k before after) (hm : k.lever = true ∨ k.travel = true) :
    demandOf .autoIdle after.records = none ∧ after.idleTimer = none := by
  rw [h.records, h.idleTimer, takeHandoff_idleTimer, if_pos (by tauto)]
  exact ⟨settle_absent (takeHandoff_moving before hm), rfl⟩

theorem LadderTook.idle_met (h : LadderTook k before after) (hl : k.lever = false) (ht : k.travel = false)
    (hp : k.phase = .idle) (ho : k.operator = true) :
    after.idleTimer =
      if demandOf .autoIdle before.records = none ∧ before.idleTimer = none then
        some (before.economy.idleDelay * 1000).toNat
      else before.idleTimer := by
  rw [h.idleTimer, takeHandoff_idleTimer, if_neg (by simp [hl, ht, hp, ho])]
  rfl

theorem LadderTook.idle_unmet (h : LadderTook k before after) (hu : k.phase ≠ .idle ∨ k.operator = false) :
    after.idleTimer = none := by
  rw [h.idleTimer, takeHandoff_idleTimer, if_pos (by tauto)]

theorem LadderTook.boost_withdraw (h : LadderTook k before after) (hb : k.boost = some .withdraw) :
    demandOf .digBoost after.records = none := by
  rw [h.records]
  exact settle_absent (takeHandoff_boost_withdraw before hb)

theorem LadderTook.boost_place (h : LadderTook k before after) (hb : k.boost = some .place)
    (hs : before.service = false) (ht : 0 < before.config.boostTime) :
    ∃ d, demandOf .digBoost after.records = some d ∧ d.rpm = before.config.boost ∧
      d.duration = some (before.config.boostTime * 1000).toNat ∧ d.origin = .internal := by
  rw [h.records]
  have lasting : some (secondsToMs before.config.boostTime) ≠ some 0 := by
    rw [Ne, Option.some.injEq, secondsToMs]
    omega
  exact (takeHandoff_boost_place hb hs).settle lasting

theorem LadderTook.boost_barred (h : LadderTook k before after) (hb : k.boost = some .place)
    (hs : before.service = true) (ha : demandOf .digBoost before.records = none) :
    demandOf .digBoost after.records = none := by
  rw [h.records]
  exact settle_absent (takeHandoff_boost_barred hb hs ha)

end

/-- The THERMAL stage where a temperature channel is valid, by whether one of them stands at a limit (R116). -/
theorem thermalStage_valid (e : Economy) (old : ThermalStage) {v w : Bool} (x y : Int) (h : v = true ∨ w = true) :
    thermalStage e old (validValue v x) (validValue w y) =
      if v = true ∧ e.t2 ≤ x ∨ w = true ∧ e.t2 ≤ y then .stage2
      else if v = true ∧ e.t1 ≤ x ∨ w = true ∧ e.t1 ≤ y then .stage1 else .none := by
  cases v with
  | true => cases w <;> simp [thermalStage, hotter, validValue]
  | false =>
    obtain rfl : w = true := by simpa using h
    simp [thermalStage, hotter, validValue]

/-- The THERMAL stage after a hand-off (R116). -/
theorem thermalStage_spec (e : Economy) (old : ThermalStage) (v w : Bool) (x y : Int) :
    let above := fun limit : Int => v = true ∧ limit ≤ x ∨ w = true ∧ limit ≤ y
    let stage := thermalStage e old (validValue v x) (validValue w y)
    (v = false → w = false → stage = old) ∧
      (v = true ∨ w = true →
        (above e.t2 → stage = .stage2) ∧ (¬above e.t2 → above e.t1 → stage = .stage1) ∧
          (¬above e.t2 → ¬above e.t1 → stage = .none)) := by
  intro above stage
  refine ⟨fun hv hw => ?_, fun h => ?_⟩
  · simp only [stage, hv, hw]
    rfl
  · have formed : stage = if above e.t2 then .stage2 else if above e.t1 then .stage1 else .none :=
      thermalStage_valid e old x y h
    refine ⟨fun h2 => ?_, fun h2 h1 => ?_, fun h2 h1 => ?_⟩
    · rw [formed, if_pos h2]
    · rw [formed, if_neg h2, if_pos h1]
    · rw [formed, if_neg h2, if_neg h1]

/-- The WARMUP floor after a hand-off (R117). -/
theorem warmupAfter_spec (e : Economy) (old v : Bool) (x : Int) :
    warmupAfter e old (validValue v x) = if v then decide (x < e.warmThreshold) else old := by cases v <;> rfl

/-! ## The stamps (R175) -/

theorem raiseAll_faultEvents (l : Latch) (p : PoseResult) (x : Slot SolveFaultStamp) :
    raiseAll x (faultEvents l p) = if p.quality = .withheld then raiseSlot x ⟨l.sample.seq, p.causes⟩ else x := by
  unfold faultEvents
  split <;> rfl

theorem raiseAll_toList {α : Type} (x : Slot α) (r : Option α) : raiseAll x r.toList = r.elim x (raiseSlot x) := by
  cases r <;> rfl

/-! ## The output set -/

/-- Whether an expiry falls between decides over active set and period timer alone. -/
theorem HandOffsFrom.active {o : CompletionOrder} {l : Latch} {p : PoseResult} {e : EvalResult} {a : AidsResult}
    {s m t : State} (hand : HandOffsFrom o l p e a s m) (fin : FinishedFrom m t) :
    (¬ExpiryFalls o s → t.output.active = s.output.active ∧ t.output.periodTimer = s.output.periodTimer) ∧
      (ExpiryFalls o s → t.output.periodTimer = some s.output.period ∧ t.output.active = evaluatedSet l p s) := by
  obtain ⟨x, y, z, out⟩ := hand.output
  obtain ⟨x', y', z', out'⟩ := fin.output
  refine ⟨fun h => ?_, fun h => ?_⟩
  · rw [out', out, beforeHandOff_output_quiet l p a h]
    exact ⟨rfl, rfl⟩
  · rw [out', out, beforeHandOff_output_due l p a h]
    exact ⟨rfl, rfl⟩

/-! ## The finish -/

/-- A flag request performed, written out. -/
theorem performFlag_fun : performFlag .sl = fun x w => sendAnswer .sl w.owed
    (.response (match w.request with | .read => 130 | .clear _ => 131) .ok (flagEcho x.solver w.request))
    { x with solver := { x.solver with sticky := stickyFrom x.solver.sticky w.request } } := by
  funext x w
  rw [performFlag_eq]
  rfl

/-- With no edit waiting or taken, table, evaluator and the evaluation in the pending set stand as the hand-offs left
them. -/
theorem finish_noEdits {m : State} (h : m.table.queue = []) :
    (nextSolve (applyEdits [] (serveFlags m))).table = m.table ∧
      (nextSolve (applyEdits [] (serveFlags m))).evaluator = m.evaluator ∧
      (nextSolve (applyEdits [] (serveFlags m))).output = m.output := by
  have flags := serveFlags_spec m
  have queue : (serveFlags m).table.queue = [] := by rw [flags]; exact h
  rw [applyEdits_none queue, nextSolve_eq, flags]
  exact ⟨rfl, rfl, rfl⟩

/-- Settles O28: `m` is the part after the hand-offs of R11, and the finish of R12 leads from it to the answer. -/
theorem completionHandsOffAndFinishes : Obligations.CompletionHandsOffAndFinishes := by
  intro s o l p e a hs _
  let m := handOffs o l p e a s
  let t := nextSolve (applyEdits o.edits (serveFlags m))
  have hand : HandOffsFrom o l p e a s m := handOffs_spec o l p e a s
  have fin : FinishedFrom m t := finish_spec o.edits m
  have ex : exec (.solveCompletion o) s = .next t := exec_solveCompletion hs o
  obtain ⟨before, took, hb⟩ := hand.ladder
  obtain ⟨handed, duty, basis⟩ := hand.duty
  obtain ⟨x, y, z, out⟩ := hand.output
  obtain ⟨x', y', z', out'⟩ := fin.output
  obtain ⟨g, v, solver⟩ := fin.solver
  have pending : t.output.pending = { m.output.pending with scales := x', binding := y', fallback := z' } := by rw [out']
  have pending' : m.output.pending = { evaluatedSet l p s with target := x, next := y, advise := z } := by rw [out]
  have records : before.records = s.ladder.records := by rw [hb]
  have config : before.config = s.ladder.config := by rw [hb]
  have economy : before.economy = s.ladder.economy := by rw [hb]
  have timer : before.idleTimer = s.ladder.idleTimer := by rw [hb]
  have service : before.service = if o.ladderFirst then s.ladder.service else t.ladder.service := by rw [fin.ladder, hb]
  have thermal : before.thermal = s.ladder.thermal := by rw [hb]
  have warmup : before.warmup = s.ladder.warmup := by rw [hb]
  obtain ⟨written1, written2, written3, written4, written5⟩ := hand.written
  rw [← fin.ladder] at took
  refine ⟨t, m, ex, ?_, ?_, ?_, ?_, ?_, ?_, ?_, ?_, ?_, ?_, ?_, ?_, ?_, ?_, ?_, ?_, ?_, ?_, ?_, ?_, ?_, ?_, ?_, ?_, ?_, ?_, ?_,
    ?_, hand.table, hand.evaluator, hand.aid, hand.intake, fin.items.symm, fin.ring.symm, fin.duty.symm, fin.ladder.symm,
    fin.stamps.symm, fin.part.symm, ?_, hand.sends, ?_⟩
  · rw [fin.part, hand.part]
  · rw [pending, pending']; rfl
  · rw [pending, pending']; rfl
  · rw [pending, pending']; rfl
  · intro hq he
    have none : m.table.queue = [] := by rw [hand.table]; exact hq
    obtain ⟨table, evaluator, output⟩ := finish_noEdits none
    have same : t = nextSolve (applyEdits [] (serveFlags m)) := by rw [← he]
    rw [same, table, evaluator, output, out, hand.table, hand.evaluator]
    exact ⟨rfl, rfl, rfl, rfl, rfl⟩
  · exact hand.active fin
  · rw [fin.duty, fin.items, fin.ring, duty]
    exact ⟨rfl, basis, hand.schedule⟩
  · rw [fin.ladder, fin.items, hand.service]
  · rw [fin.stamps, hand.stamps, raiseStamps, raiseAll_faultEvents, raiseAll_toList]
    cases a.stamp <;> rfl
  · rw [took.config, config]
  · rw [took.economy, economy]
  · intro v x above
    rw [took.thermal, took.warmup, economy, thermal, warmup]
    obtain ⟨held, formed⟩ := thermalStage_spec s.ladder.economy s.ladder.thermal v.coolant v.oil x.coolant x.oil
    exact ⟨held, formed, warmupAfter_spec _ _ _ _⟩
  · exact took.travel_off
  · intro ht ha
    obtain ⟨d, hd, rpm, origin⟩ := took.travel_on ht (records ▸ ha)
    exact ⟨d, hd, rpm.trans (by rw [config]), origin⟩
  · exact took.moving
  · intro hl ht
    refine ⟨fun hp ho => ?_, fun hu => took.idle_unmet hu⟩
    rw [took.idle_met hl ht hp ho, records, timer, economy]
  · exact took.boost_withdraw
  · intro hb' hs' ht
    rw [← config] at ht ⊢
    exact took.boost_place hb' (service.trans hs') ht
  · intro hb' hs' ha
    exact took.boost_barred hb' (service.trans hs') (records ▸ ha)
  · rw [fin.ladder, written1]
  · rw [fin.ladder, written2]
  · rw [fin.ladder, pending, ← written3]
  · rw [fin.ladder, pending, ← written4]
  · rw [fin.ladder, pending, ← written5]
  · rw [fin.aid, hand.aid]
  · exact fin.queue
  · rw [← hand.intake]; exact fin.idle
  · intro w hw
    have next := fin.next w (by rw [hand.intake]; exact hw)
    rw [hand.intake, hand.aid, hand.solver] at next
    exact next
  · rw [hand.solver, solver, hand.solver]
    rfl
  · intro flagged stepped edited
    have whole : edited = applyEdits o.edits (serveFlags m) := by
      have waiting : m.solver.waiting = s.solver.waiting := by rw [hand.solver]; rfl
      simp only [applyEdits, applyQueue, serveFlags, performFlag_fun, waiting]
      rfl
    rw [whole]
    exact nextSolve_eq _

end Sys2Proof.Proofs
end

section
/-! SUPPORT. Fields clamped as they are taken, and SET_SOLVER and SET_AIDS at their owners (O50). -/

namespace Sys2Proof.Proofs

open Sys2Proof Sys2Proof.Machine Sys2Proof.Laws

/-! ## Clamped fields (spec/00_scope.md 4.3) -/

theorem clamp_eq {lo hi : Int} (h : lo ≤ hi) (x : Int) : clamp lo hi x = max lo (min hi x) := by
  unfold clamp
  split
  · omega
  · split <;> omega

/-- A value that a signed 16-bit field can carry is taken as it is. -/
theorem sat16_of_fits {x : Int} (h : fitsSigned x = true) : sat16 x = x := by
  simp only [fitsSigned, Bool.and_eq_true, decide_eq_true_eq] at h
  rw [sat16, clamp_eq (by decide)]
  omega

/-- A record replaced and marked dirty on the state whose head frame was taken, and answered: the dirty mark does not
look at the ports. -/
theorem reply_markDirty {s t u : State} {l : Link} (r : Request) (x : Result) (e : Echo) (k : RecordId)
    (ha : (portOf s l).state = .active) (hp : t.ports = (takeHead l s).ports) (hu : { t with ports := s.ports } = u) :
    reply l r x e (markDirty k t) = answer l r x e (markDirty k u) := by
  rw [reply_takeHead r x e ha (by rw [markDirty_ports, hp]), ← markDirty_withPorts, hu]

/-! ## SET_SOLVER (R38) -/

/-- SET_SOLVER is refused for a rounding code or an enable outside the five (R38). -/
theorem takeControl_refused {m : Option Rounding} {alien : Bool} (h : m = none ∨ alien = true) (en : CauseMarks)
    (flush : Bool) (band limit : Int) : takeControl m en alien flush band limit = none := by
  obtain rfl | rfl := h
  · rfl
  · cases m <;> rfl

theorem takeControl_taken (k : Rounding) (en : CauseMarks) (flush : Bool) (band limit : Int) :
    takeControl (some k) en false flush band limit =
      some { rounding := k, enables := en, flush := flush, deadBand := max 0 (min 2000 band)
             staleLimit := max 40 (min 500 limit) } := by
  rw [takeControl, clamp_eq (by decide), clamp_eq (by decide)]

/-- A SET_SOLVER that passes the checks of R181 is handled by the solver. -/
theorem exec_setSolver {s : State} {d : Payload} (ho : Offered s .sl .setSolver d) :
    exec (.setSolver .sl) s = .next (serveSetSolver .sl d (takeHead .sl s)) :=
  congrArg Host.Outcome.next (takeRequest_offered ho fun f hf => by simp [takerOf, (isRequest_code hf).1])

/-! ## SET_AIDS (R99, R100) -/

theorem takeAid_refused {q : AidRecord} (h1 : q.prescale ≠ 1) (h4 : q.prescale ≠ 4) (h16 : q.prescale ≠ 16) :
    takeAid q = none := by simp [takeAid, h1, h4, h16]

theorem takeAid_taken {q : AidRecord} (hw : q.wf = true) (h : q.prescale = 1 ∨ q.prescale = 4 ∨ q.prescale = 16) :
    takeAid q = some
      { q with
        digPressure := max 0 (min 65000 q.digPressure), omegaStill := max 0 (min 40000 q.omegaStill)
        omegaSwing := max 0 (min 40000 q.omegaSwing), timeout := max 5 (min 120 q.timeout)
        settle := max 0 (min 15 q.settle), boostPressure := max 0 (min 65000 q.boostPressure)
        headArea := max 0 (min 2000000 q.headArea), rodArea := max 0 (min 2000000 q.rodArea) } := by
  obtain ⟨curl, dump⟩ := Bool.and_eq_true_iff.1 hw
  rw [takeAid, if_pos h, sat16_of_fits curl, sat16_of_fits dump]
  repeat rw [clamp_eq (by decide)]

/-- A payload point that its fields can carry keeps reach and empty force. -/
theorem clampPoint_of_wf {p : PayloadPoint} (h : p.wf = true) :
    clampPoint p = { p with gain := max 0 (min 10000 p.gain) } := by
  obtain ⟨reach, empty⟩ := Bool.and_eq_true_iff.1 h
  rw [clampPoint, sat16_of_fits reach, sat16_of_fits empty, clamp_eq (by decide)]

theorem eightMap_clampPoint {t : Eight PayloadPoint} (h : tableWf t = true) :
    eightMap clampPoint t = eightMap (fun p : PayloadPoint => { p with gain := max 0 (min 10000 p.gain) }) t := by
  simp only [tableWf, Bool.and_eq_true, and_assoc] at h
  obtain ⟨h0, h1, h2, h3, h4, h5, h6, h7⟩ := h
  simp only [eightMap, clampPoint_of_wf, *]

theorem strictlyRising_iff (t : Eight PayloadPoint) :
    strictlyRising t = true ↔ t.p0.reach < t.p1.reach ∧ t.p1.reach < t.p2.reach ∧ t.p2.reach < t.p3.reach ∧
      t.p3.reach < t.p4.reach ∧ t.p4.reach < t.p5.reach ∧ t.p5.reach < t.p6.reach ∧ t.p6.reach < t.p7.reach := by
  simp [strictlyRising, and_assoc]

/-- The points of a table rise as received or as clamped: the clamp changes the gains alone (R100). -/
theorem takeTable_eq {q : Eight PayloadPoint} (hw : tableWf q = true) :
    takeTable q =
      let t := eightMap (fun p : PayloadPoint => { p with gain := max 0 (min 10000 p.gain) }) q
      if strictlyRising q = true then some t else none := by
  rw [takeTable, eightMap_clampPoint hw]
  rfl

/-- A SET_AIDS that passes the checks of R181 is handled by the aid unit. -/
theorem exec_setAidsThresholds {s : State} {d : Payload} (ho : Offered s .sl .setAids d) (h : ∀ q, d ≠ .aidTable q) :
    exec (.setAidsThresholds .sl) s = .next (serveSetAids .sl d (takeHead .sl s)) :=
  congrArg Host.Outcome.next (takeRequest_offered ho fun f hf => by
    obtain ⟨hc, rfl⟩ := isRequest_code hf
    simp only [takerOf, hc])

theorem exec_setAidsTable {s : State} {q : Eight PayloadPoint} (ho : Offered s .sl .setAids (.aidTable q)) :
    exec (.setAidsTable .sl) s = .next (serveSetAids .sl (.aidTable q) (takeHead .sl s)) :=
  congrArg Host.Outcome.next (takeRequest_offered ho fun f hf => by simp [takerOf, isRequest_code hf])

/-- Settles O50: each request is refused or taken by its own check, and a record taken is stored, marked and echoed. -/
theorem solverAndAidRecordsAreReplaced : Obligations.SolverAndAidRecordsAreReplaced := by
  refine ⟨fun s m en alien flush band limit ho => ?_, fun s q ho hw => ?_, fun s ho => ?_, fun s q ho hw => ?_⟩
  · have active := offered_active ho
    rw [exec_setSolver ho]
    refine ⟨fun refused => ?_, fun k hm ha => ?_⟩
    · simp only [serveSetSolver, takeControl_refused refused, reply_takeHead_only _ _ _ active]
    · subst hm ha
      simp only [serveSetSolver, takeControl_taken]
      exact congrArg Host.Outcome.next (reply_markDirty .setSolver .ok _ .solver active rfl rfl)
  · have active := offered_active ho
    rw [exec_setAidsThresholds ho (by simp)]
    refine ⟨fun h1 h4 h16 => ?_, fun h => ?_⟩
    · simp only [serveSetAids, takeAid_refused h1 h4 h16, reply_takeHead_only _ _ _ active]
    · simp only [serveSetAids, takeAid_taken hw h]
      exact congrArg Host.Outcome.next (reply_markDirty .setAids .ok _ .aid active rfl rfl)
  · rw [exec_setAidsThresholds ho (by simp)]
    exact congrArg Host.Outcome.next (reply_takeHead_only _ _ _ (offered_active ho))
  · have active := offered_active ho
    rw [exec_setAidsTable ho]
    simp only [serveSetAids, takeTable_eq hw]
    refine ⟨fun falls => ?_, fun rises => ?_⟩
    · rw [if_neg fun h => falls ((strictlyRising_iff _).1 h)]
      exact congrArg Host.Outcome.next (reply_takeHead_only _ _ _ active)
    · rw [if_pos ((strictlyRising_iff _).2 rises)]
      exact congrArg Host.Outcome.next (reply_markDirty .setAids .ok _ .payloadTable active rfl rfl)

end Sys2Proof.Proofs
end

section
/-! SUPPORT. The sine table and its interpolation (O15); rounded terms and the points they sum to (O16). -/

namespace Sys2Proof.Proofs

open Sys2Proof Sys2Proof.Machine Sys2Proof.Laws

/-! ## The sine table (R24) -/

theorem sineTable_length : sineTable.length = 257 := by
  simp only [sineTable, List.length_append]
  decide

/-- The table rises within each segment and from each to the next. -/
theorem sineTable_chain : sineTable.IsChain (· ≤ ·) := by
  simp only [sineTable, List.isChain_append]
  refine ⟨⟨⟨⟨⟨⟨⟨?_, ?_, ?_⟩, ?_, ?_⟩, ?_, ?_⟩, ?_, ?_⟩, ?_, ?_⟩, ?_, ?_⟩, ?_, ?_⟩ <;> decide

theorem sineTable_le : ∀ n ∈ sineTable, n ≤ 16384 := by
  simp only [sineTable, List.forall_mem_append]
  refine ⟨⟨⟨⟨⟨⟨⟨?_, ?_⟩, ?_⟩, ?_⟩, ?_⟩, ?_⟩, ?_⟩, ?_⟩ <;> decide

theorem sineEntry_eq {i : Nat} (h : i < 257) : sineEntry i = (sineTable[i]'(sineTable_length ▸ h) : Nat) := by
  rw [sineEntry, List.getD_eq_getElem]

/-- The entries never decrease. -/
theorem sineEntry_rises {i : Nat} (h : i < 256) : sineEntry i ≤ sineEntry (i + 1) := by
  rw [sineEntry_eq (by omega), sineEntry_eq (by omega)]
  exact Int.ofNat_le.2 (List.isChain_iff_getElem.1 sineTable_chain i (by rw [sineTable_length]; omega))

theorem sineEntry_bounds {i : Nat} (h : i < 257) : 0 ≤ sineEntry i ∧ sineEntry i ≤ 16384 := by
  rw [sineEntry_eq h]
  exact ⟨Int.natCast_nonneg _, Int.ofNat_le.2 (sineTable_le _ (List.getElem_mem _))⟩

/-! ## Sine and cosine (R25, R26) -/

/-- The interpolation lies between the two entries around its argument. -/
theorem interpolated_between {lo hi f : Int} (h : lo ≤ hi) (hf : 0 ≤ f) (hf' : f < 64) :
    lo ≤ lo + ((hi - lo) * f + 32) / 64 ∧ lo + ((hi - lo) * f + 32) / 64 ≤ hi := by
  have low : 0 ≤ (hi - lo) * f := Int.mul_nonneg (by omega) hf
  have high : (hi - lo) * f ≤ (hi - lo) * 63 := Int.mul_le_mul_of_nonneg_left (by omega) (by omega)
  omega

theorem quarterWave_bounds {x : Int} (h : 0 ≤ x) (h' : x ≤ 16384) : 0 ≤ quarterWave x ∧ quarterWave x ≤ 16384 := by
  unfold quarterWave
  split
  · decide
  · have place : (x / 64).toNat < 256 := by omega
    obtain ⟨low, -⟩ := sineEntry_bounds (i := (x / 64).toNat) (by omega)
    obtain ⟨-, high⟩ := sineEntry_bounds (i := (x / 64).toNat + 1) (by omega)
    obtain ⟨above, below⟩ := interpolated_between (sineEntry_rises place) (f := x % 64) (by omega) (by omega)
    exact ⟨low.trans above, below.trans high⟩

/-- The sine by quadrant (R25). -/
theorem sine_quadrant {a : Int} (h : 0 ≤ a) (h' : a ≤ 65535) :
    (a < 16384 → sine a = quarterWave (a % 16384)) ∧
      (16384 ≤ a → a < 32768 → sine a = quarterWave (16384 - a % 16384)) ∧
      (32768 ≤ a → a < 49152 → sine a = -quarterWave (a % 16384)) ∧
      (49152 ≤ a → sine a = -quarterWave (16384 - a % 16384)) := by
  refine ⟨fun _ => ?_, fun _ _ => ?_, fun _ _ => ?_, fun _ => ?_⟩
  · have quadrant : a / 16384 = 0 := by omega
    simp [sine, quadrant]
  · have quadrant : a / 16384 = 1 := by omega
    simp [sine, quadrant]
  · have quadrant : a / 16384 = 2 := by omega
    simp [sine, quadrant]
  · have quadrant : a / 16384 = 3 := by omega
    simp [sine, quadrant]

theorem sine_bounds {a : Int} (h : 0 ≤ a) (h' : a ≤ 65535) : -16384 ≤ sine a ∧ sine a ≤ 16384 := by
  obtain ⟨q0, q1, q2, q3⟩ := sine_quadrant h h'
  obtain ⟨up, up'⟩ := quarterWave_bounds (x := a % 16384) (by omega) (by omega)
  obtain ⟨down, down'⟩ := quarterWave_bounds (x := 16384 - a % 16384) (by omega) (by omega)
  by_cases h0 : a < 16384
  · rw [q0 h0]; omega
  · by_cases h1 : a < 32768
    · rw [q1 (by omega) h1]; omega
    · by_cases h2 : a < 49152
      · rw [q2 (by omega) h2]; omega
      · rw [q3 (by omega)]; omega

/-- Settles O15: the table is the model's own, and both functions lie within its greatest entry. -/
theorem sineAndCosineKeepRange : Obligations.SineAndCosineKeepRange := by
  refine ⟨⟨sineEntry, by decide, fun i => sineEntry_rises, fun a => sine_quadrant⟩, fun a h h' => ?_⟩
  have turned := sine_bounds (a := (a + 16384) % 65536) (by omega) (by omega)
  obtain ⟨low, high⟩ := sine_bounds h h'
  exact ⟨rfl, low, high, turned⟩

/-! ## Rounded terms (R28) -/

theorem roundTerm_down (t : Int) : 16384 * roundTerm .down t ≤ t ∧ t < 16384 * roundTerm .down t + 16384 := by
  simp only [roundTerm]
  omega

theorem roundTerm_up (t : Int) : t ≤ 16384 * roundTerm .up t ∧ 16384 * roundTerm .up t < t + 16384 := by
  simp only [roundTerm]
  split <;> omega

theorem roundTerm_towardZero (t : Int) : roundTerm .towardZero t = Int.tdiv t 16384 := by
  simp only [roundTerm]
  rw [Int.tdiv_eq_ediv, show Int.sign 16384 = 1 from rfl]
  split <;> split <;> omega

theorem roundTerm_nearest (t : Int) :
    2 * |t - 16384 * roundTerm .nearest t| ≤ 16384 ∧
      (2 * |t - 16384 * roundTerm .nearest t| = 16384 → roundTerm .nearest t % 2 = 0) := by
  simp only [roundTerm]
  split
  · rw [abs_of_nonneg (by omega)]; omega
  · split
    · rw [abs_of_nonpos (by omega)]; omega
    · split
      · rw [abs_of_nonneg (by omega)]; omega
      · rw [abs_of_nonpos (by omega)]; omega

/-! ## Points (R27 to R30) -/

theorem sat16_eq_self_iff (x : Int) : sat16 x = x ↔ -32768 ≤ x ∧ x ≤ 32767 := by
  unfold sat16 clamp
  split
  · omega
  · split <;> omega

theorem publishPoint_eq_self_iff (p : Point) : publishPoint p = p ↔ sat16 p.r = p.r ∧ sat16 p.z = p.z := by
  cases p
  simp [publishPoint]

/-- OVERFLOW is raised exactly when a coordinate had to be saturated (R29). -/
theorem overflowRaised_iff (p : Points) :
    overflowRaised (some p) = true ↔
      ∃ x, (x = p.p1.r ∨ x = p.p1.z ∨ x = p.p2.r ∨ x = p.p2.z ∨ x = p.p3.r ∨ x = p.p3.z) ∧
        (x < -32768 ∨ 32767 < x) := by
  have same : publishPoints p = p ↔ publishPoint p.p1 = p.p1 ∧ publishPoint p.p2 = p.p2 ∧ publishPoint p.p3 = p.p3 := by
    cases p
    simp [publishPoints]
  simp only [overflowRaised, decide_eq_true_eq, Ne, same, publishPoint_eq_self_iff, sat16_eq_self_iff, or_and_right,
    exists_or, exists_eq_left]
  omega

/-- With a geometry record the points of a solve are its exact points as published, and OVERFLOW is theirs. -/
theorem poseResult_present {l : Latch} {g : Geometry} (h : l.geometry = .present g) (good : LastGood) :
    let exact := exactPoints l.control.rounding g (settleChain g l.sample good)
    (poseResult l good).points = some (publishPoints exact) ∧
      (poseResult l good).causes.marks.overflow = overflowRaised (some exact) := by
  simp [poseResult, causesOf, exactOf, geometryFields, h]

/-- Settles O16: the points are those of `exactPoints`, whose sums the statement writes out. -/
theorem pointsAreRunningSums : Obligations.PointsAreRunningSums := by
  refine ⟨fun t => ⟨roundTerm_down t, roundTerm_up t, roundTerm_towardZero t, roundTerm_nearest t⟩,
    fun l good g hg => ?_⟩
  obtain ⟨points, overflow⟩ := poseResult_present hg good
  exact ⟨points, (overflow ▸ overflowRaised_iff _ :)⟩

end Sys2Proof.Proofs
end

section
/-! SUPPORT. The rewrite of R77, and SET_GRADE and SET_GEOMETRY applied at their owners (O23). -/

namespace Sys2Proof.Proofs

open Sys2Proof Sys2Proof.Machine Sys2Proof.Laws

/-! ## Dirty marks -/

/-- A dirty mark changes the store alone. -/
theorem markDirty_eq (r : RecordId) (s : State) : markDirty r s = { s with store := (markDirty r s).store } := by
  unfold markDirty
  obtain ⟨_, h⟩ | ⟨v, _, ⟨_, h⟩ | ⟨_, h⟩⟩ := triggerSave_cases (markOnly r s) <;> (rw [h]; rfl)

/-- A trigger does not look at the evaluator, of which the image holds nothing. -/
theorem triggerSave_withEvaluator (e : Evaluator) (s : State) :
    triggerSave { s with evaluator := e } = { triggerSave s with evaluator := e } := by
  have snap : snapshot { s with evaluator := e } = snapshot s := by funext r; cases r <;> rfl
  unfold triggerSave
  cases h : s.store.save with
  | none => simp [startSave, snap]
  | some v => cases hr : v.isRestart <;> simp [hr]

/-- A dirty mark does not look at the evaluator. -/
theorem markDirty_withEvaluator (r : RecordId) (e : Evaluator) (s : State) :
    markDirty r { s with evaluator := e } = { markDirty r s with evaluator := e } :=
  triggerSave_withEvaluator e (markOnly r s)

/-! ## The rewrite of R77 -/

/-- The rewrite replaces and writes the record while the pose is unusable and the record differs, or does nothing. -/
theorem editRewrite_cases (s : State) :
    (editRewrite s = s ∧ (usable s.solver.pose.quality = false →
      (fallbackNow s).scales = s.evaluator.record.scales ∧ (fallbackNow s).binding = s.evaluator.record.binding)) ∨
    (editRewrite s = rewriteRecord (fallbackNow s) s ∧ usable s.solver.pose.quality = false) := by
  unfold editRewrite
  dsimp only
  split
  · rename_i h
    exact .inr ⟨rfl, h.1⟩
  · rename_i h
    refine .inl ⟨rfl, fun hu => ?_⟩
    simpa [hu] using h

/-- The rewrite changes the evaluator's record and the output block alone. -/
theorem editRewrite_eq (s : State) :
    editRewrite s =
      { s with
        evaluator := { s.evaluator with record := (editRewrite s).evaluator.record }
        output := (editRewrite s).output } := by
  obtain ⟨h, -⟩ | ⟨h, -⟩ := editRewrite_cases s
  · rw [h]
  · rw [h]; rfl

/-- The rewrite after an edit that left pose, evaluator's record and output block alone (R77). -/
theorem rewritten_editRewrite {s u : State} (hp : u.solver.pose = s.solver.pose)
    (he : u.evaluator.record = s.evaluator.record) (ho : u.output = s.output) :
    RewrittenIfUnusable s (editRewrite u) (geometryFields u.solver.geometry) := by
  have unusable : IsUnusableRecord u.table (geometryFields u.solver.geometry) (fallbackNow u) := unusableRecord_spec _ _
  unfold RewrittenIfUnusable
  rw [← hp, ← he, ← ho, editRewrite_table]
  obtain ⟨h, same⟩ | ⟨h, hu⟩ := editRewrite_cases u
  · rw [h]
    refine ⟨fun _ => ⟨rfl, rfl⟩, fun hu => ⟨?_, .inl ⟨rfl, rfl⟩⟩⟩
    obtain ⟨scales, binding⟩ := same hu
    dsimp only
    rw [← scales, ← binding]
    exact unusable
  · rw [h]
    exact ⟨fun usable => absurd usable (by simp [hu]), fun _ => ⟨unusable, .inr ⟨rfl, rfl⟩⟩⟩

/-! ## SET_GRADE (R53, R56) -/

/-- The origin that a link writes: SITE on SL alone (R53). -/
theorem originOf_eq (l : Link) : originOf l = if l = .sl then .site else .operator := by cases l <;> rfl

/-- A SET_GRADE at the table: refused, or it finds no plane to clear, or the plane it makes is accepted (R53). -/
theorem applyPlane_cases (l : Link) (act : PlaneAction) (s : State) :
    (l ≠ .sl ∧ planeIsSite s.table.plane = true ∧ applyPlane l act s = (.isProtected, s)) ∨
    ((l = .sl ∨ planeIsSite s.table.plane = false) ∧
      (act = .clear ∧ s.table.plane = .absent ∧ applyPlane l act s = (.notFound, s) ∨
        act = .clear ∧ s.table.plane ≠ .absent ∧ applyPlane l act s = (.ok, acceptPlane .absent s) ∨
        ∃ b, act = .set b ∧ applyPlane l act s = (.ok, acceptPlane (.present (originOf l) b) s))) := by
  unfold applyPlane
  split
  · rename_i h
    exact .inl ⟨h.1, h.2, rfl⟩
  · rename_i h
    refine .inr ⟨by simpa [or_iff_not_imp_left] using h, ?_⟩
    cases act with
    | set b => exact .inr (.inr ⟨b, rfl, rfl⟩)
    | clear => cases hp : s.table.plane <;> simp [planeAfter]

/-- An accepted plane edit: the table and the marks as changed, the store with its dirty mark, then the rewrite. -/
theorem acceptPlane_eq (p : GradePlane) (s : State) :
    acceptPlane p s = editRewrite
      { putPlane p s with
        evaluator := (clearEntryMarks 32 s).evaluator
        store := if planeIsSite s.table.plane || planeIsSite p then (markDirty .grade (putPlane p s)).store
          else s.store } := by
  have cleared : clearEntryMarks Config.zoneCount (putPlane p s) =
      { putPlane p s with evaluator := (clearEntryMarks 32 s).evaluator } := rfl
  unfold acceptPlane
  dsimp only
  rw [cleared, markDirty_withEvaluator]
  split
  · rw [markDirty_eq]
  · rfl

/-- A mark cleared is clear, and the others are as they were. -/
theorem getD_set_false {marks : List Bool} {n : Nat} (h : n < marks.length) :
    (marks.set n false).getD n true = false ∧ ∀ k, k ≠ n → (marks.set n false).getD k false = marks.getD k false := by
  refine ⟨by simp [h], fun k hk => ?_⟩
  simp [List.getD_eq_getElem?_getD, List.getElem?_set_ne hk.symm]

/-- What an accepted plane edit changes: plane, marks of entry 32, store, and the rewrite of R77. -/
theorem acceptPlane_spec (p : GradePlane) {s : State} (hi : s.evaluator.inside.length = 33)
    (hc : s.evaluator.clear.length = 33) :
    let t := acceptPlane p s
    t.evaluator.inside.getD 32 true = false ∧ t.evaluator.clear.getD 32 true = false ∧
      (∀ k, k ≠ 32 → t.evaluator.inside.getD k false = s.evaluator.inside.getD k false ∧
        t.evaluator.clear.getD k false = s.evaluator.clear.getD k false) ∧
      t.store = (if planeIsSite s.table.plane || planeIsSite t.table.plane then
        (markDirty .grade { s with table := t.table }).store else s.store) ∧
      RewrittenIfUnusable s t (geometryFields s.solver.geometry) ∧
      t = { s with
            table := { s.table with plane := t.table.plane, floorLimit := t.table.floorLimit }
            evaluator := t.evaluator, output := t.output, store := t.store } := by
  dsimp only
  obtain ⟨inside, insideElse⟩ := getD_set_false (marks := s.evaluator.inside) (n := 32) (by omega)
  obtain ⟨clear, clearElse⟩ := getD_set_false (marks := s.evaluator.clear) (n := 32) (by omega)
  rw [acceptPlane_eq]
  refine ⟨?_, ?_, fun k hk => ⟨?_, ?_⟩, ?_, ?_, ?_⟩
  · rw [editRewrite_eq]; exact inside
  · rw [editRewrite_eq]; exact clear
  · rw [editRewrite_eq]; exact insideElse k hk
  · rw [editRewrite_eq]; exact clearElse k hk
  · rw [editRewrite_store, editRewrite_table]; rfl
  · exact rewritten_editRewrite rfl rfl rfl
  · conv_lhs => rw [editRewrite_eq]
    rw [editRewrite_table, editRewrite_store]
    conv_rhs => rw [editRewrite_eq]
    rfl

@[simp] theorem acceptPlane_plane (p : GradePlane) (s : State) : (acceptPlane p s).table.plane = p := by
  rw [acceptPlane_eq, editRewrite_table]
  rfl

/-! ## SET_GEOMETRY (R36) -/

/-- What an applied SET_GEOMETRY changes: geometry and last good values, store, and the rewrite of R77. -/
theorem applyGeometry_spec (g : Geometry) (s : State) :
    let t := applyGeometry g s
    t.solver = { s.solver with geometry := .present g, good := saturateGood g s.solver.good } ∧
      t.store = (markDirty .geometry { s with solver := t.solver }).store ∧
      RewrittenIfUnusable s t g ∧
      t = { s with
            solver := t.solver, store := t.store, evaluator := { s.evaluator with record := t.evaluator.record }
            output := t.output } := by
  have solver : (applyGeometry g s).solver =
      { s.solver with geometry := .present g, good := saturateGood g s.solver.good } := by simp [applyGeometry]
  dsimp only
  rw [solver]
  unfold applyGeometry
  rw [markDirty_eq]
  refine ⟨rfl, editRewrite_store _, rewritten_editRewrite rfl rfl rfl, ?_⟩
  rw [editRewrite_store]
  exact editRewrite_eq _

/-- Settles O23: a plane by the cases of `applyPlane`, the accepted ones by `acceptPlane_spec`. -/
theorem planeAndGeometryEditsApply : Obligations.PlaneAndGeometryEditsApply := by
  refine ⟨fun l act s hi hc => ?_, fun g s => applyGeometry_spec g s⟩
  have unbarred : (l = .sl ∨ planeIsSite s.table.plane = false) → ¬(l ≠ .sl ∧ planeIsSite s.table.plane = true) :=
    fun may no => may.elim no.1 fun h => Bool.false_ne_true (h.symm.trans no.2)
  obtain ⟨hl, hs, h⟩ | ⟨may, ⟨rfl, hp, h⟩ | ⟨rfl, hp, h⟩ | ⟨b, rfl, h⟩⟩ := applyPlane_cases l act s <;> rw [h]
  · exact ⟨fun _ => rfl, fun may => absurd ⟨hl, hs⟩ (unbarred may), fun _ => rfl, nofun⟩
  · exact ⟨fun no => absurd no (unbarred may), fun _ => ⟨nofun, fun _ => by simp [hp]⟩, fun _ => rfl, nofun⟩
  · exact ⟨fun no => absurd no (unbarred may), fun _ => ⟨nofun, fun _ => by simp [hp]⟩, fun no => absurd rfl no,
      fun _ => acceptPlane_spec _ hi hc⟩
  · refine ⟨fun no => absurd no (unbarred may), fun _ => ⟨fun c hb => ?_, nofun⟩, fun no => absurd rfl no,
      fun _ => acceptPlane_spec _ hi hc⟩
    obtain rfl : b = c := by simpa using hb
    simp [originOf_eq]

end Sys2Proof.Proofs
end

section
/-! SUPPORT. Edits at their taking: applied at once, queued or answered BUSY, or refused (O24). -/

namespace Sys2Proof.Proofs

open Sys2Proof Sys2Proof.Machine Sys2Proof.Laws

/-! ## Applying an edit does not look at the ports -/

theorem editRewrite_withPorts (p : Ports) (s : State) :
    editRewrite { s with ports := p } = { editRewrite s with ports := p } := by
  unfold editRewrite
  dsimp only
  split
  · rw [if_pos ‹_›]; rfl
  · rw [if_neg ‹_›]

theorem acceptZone_withPorts (p : Ports) (n : Nat) (act : ZoneAction) (z : Zone) (s : State) :
    acceptZone n act z { s with ports := p } = { acceptZone n act z s with ports := p } := by
  have marks : (if clearsMarks act then clearEntryMarks n (putZone n z { s with ports := p })
        else putZone n z { s with ports := p }) =
      { (if clearsMarks act then clearEntryMarks n (putZone n z s) else putZone n z s) with ports := p } := by
    split <;> rfl
  unfold acceptZone
  dsimp only
  rw [marks, ← editRewrite_withPorts, markDirty_withPorts]
  exact congrArg editRewrite (apply_ite (fun t : State => { t with ports := p }) _ _ _).symm

theorem acceptPlane_withPorts (p : Ports) (q : GradePlane) (s : State) :
    acceptPlane q { s with ports := p } = { acceptPlane q s with ports := p } := by
  have marks : clearEntryMarks Config.zoneCount (putPlane q { s with ports := p }) =
      { clearEntryMarks Config.zoneCount (putPlane q s) with ports := p } := rfl
  unfold acceptPlane
  dsimp only
  rw [marks, ← editRewrite_withPorts, markDirty_withPorts]
  exact congrArg editRewrite (apply_ite (fun t : State => { t with ports := p }) _ _ _).symm

theorem applyGeometry_withPorts (p : Ports) (g : Geometry) (s : State) :
    applyGeometry g { s with ports := p } = { applyGeometry g s with ports := p } := by
  unfold applyGeometry
  rw [← editRewrite_withPorts, ← markDirty_withPorts]

theorem applyZone_withPorts (p : Ports) (l : Link) (n : Nat) (act : ZoneAction) (s : State) :
    applyZone l n act { s with ports := p } =
      ((applyZone l n act s).1, { (applyZone l n act s).2 with ports := p }) := by
  have entry : zoneAt { s with ports := p } n = zoneAt s n := rfl
  simp only [applyZone, acceptZone_withPorts, entry]
  split
  · rfl
  · obtain ⟨r, z | z⟩ := zoneAfter l act (zoneAt s n) <;> rfl

theorem applyPlane_withPorts (p : Ports) (l : Link) (act : PlaneAction) (s : State) :
    applyPlane l act { s with ports := p } = ((applyPlane l act s).1, { (applyPlane l act s).2 with ports := p }) := by
  simp only [applyPlane, acceptPlane_withPorts]
  split
  · rfl
  · obtain ⟨r, z | z⟩ := planeAfter l act s.table.plane <;> rfl

/-- An edit's result and its answer's values do not depend on the ports, nor do its effects. -/
theorem applyEdit_withPorts (p : Ports) (l : Link) (e : Edit) (s : State) :
    applyEdit l e { s with ports := p } = ((applyEdit l e s).1, { (applyEdit l e s).2 with ports := p }) := by
  cases e with
  | zone n act => simp only [applyEdit, applyZone_withPorts]; rfl
  | grade act => simp only [applyEdit, applyPlane_withPorts]
  | geometry g => simp only [applyEdit, applyGeometry_withPorts]

/-! ## The command that takes an edit request -/

/-- The command of a zone action (log 17). -/
def zoneCommand (l : Link) : ZoneAction → Instr
  | .write _ => .zoneEditWrite l
  | .delete => .zoneEditDelete l
  | .suspend => .zoneEditSuspend l
  | .resume => .zoneEditResume l

/-- A ZONE_EDIT that passes its taking checks is taken by its action's own command. -/
theorem zoneTaker_of_taken {l : Link} {b : List Byte} {n : Nat} {act : ZoneAction}
    (h : takeZoneEdit (.bytes b) = some (n, act)) : zoneTaker l (.bytes b) = zoneCommand l act := by
  simp only [takeZoneEdit] at h
  split at h
  · exact nomatch h
  · split at h
    · rename_i hb
      simp only [zoneTaker, hb]
      simp only [takeZoneWrite, Option.map_eq_some_iff, Prod.mk.injEq] at h
      obtain ⟨a, ha, -, rfl⟩ := h
      split at ha
      · split at ha
        · exact nomatch ha
        · obtain rfl := Option.some.inj ha
          rfl
      · exact nomatch ha
    iterate 3
      · rename_i hb
        obtain ⟨-, rfl⟩ := Prod.mk.inj (Option.some.inj h)
        simp only [zoneTaker, hb, zoneCommand]
    · exact nomatch h

/-- Each of the four ZONE_EDIT commands hands the data of the frame it takes to the table. -/
theorem exec_zoneTaker (l : Link) (d : Payload) (s : State) :
    exec (zoneTaker l d) s = .next (takeRequest (zoneTaker l d) l (serveZoneEdit l) s) := by
  unfold zoneTaker
  split
  · split <;> rfl
  · rfl

theorem takerOf_zoneEdit {f : RxFrame} (l : Link) (h : requestOf (frameCode f) = some .zoneEdit) :
    takerOf l f = zoneTaker l f.data := by simp [takerOf, h]

theorem exec_zoneEdit_offered {s : State} {l : Link} {d : Payload} (ho : Offered s l .zoneEdit d) :
    exec (zoneTaker l d) s = .next (serveZoneEdit l d (takeHead l s)) := by
  rw [exec_zoneTaker, takeRequest_offered ho fun f hf => ?_]
  obtain ⟨hc, rfl⟩ := isRequest_code hf
  exact takerOf_zoneEdit l hc

theorem exec_setGeometry_offered {s : State} {l : Link} {d : Payload} (ho : Offered s l .setGeometry d) :
    exec (.setGeometry l) s = .next (serveSetGeometry l d (takeHead l s)) :=
  congrArg Host.Outcome.next (takeRequest_offered ho fun f hf => by simp [takerOf, isRequest_code hf])

theorem exec_setGradeSet_offered {s : State} {l : Link} {a : Option GradeAction} {p : PlaneBody}
    (ho : Offered s l .setGrade (.setGrade a p)) (ha : a ≠ some .clear) :
    exec (.setGradeSet l) s = .next (serveSetGrade l (.setGrade a p) (takeHead l s)) :=
  congrArg Host.Outcome.next (takeRequest_offered ho fun f hf => by simp [takerOf, isRequest_code hf, ha])

theorem exec_setGradeClear_offered {s : State} {l : Link} {p : PlaneBody}
    (ho : Offered s l .setGrade (.setGrade (some .clear) p)) :
    exec (.setGradeClear l) s = .next (serveSetGrade l (.setGrade (some .clear) p) (takeHead l s)) :=
  congrArg Host.Outcome.next (takeRequest_offered ho fun f hf => by simp [takerOf, isRequest_code hf])

/-- An edit request that passes its checks is handled by `takeEdit`. -/
theorem exec_editForm {s : State} {c : Instr} {l : Link} {r : Request} {d : Payload} {e : Edit} (h : EditForm c l r d e)
    (ho : Offered s l r d) : exec c s = .next (takeEdit l e (takeHead l s)) := by
  have zone : ∀ {b n act}, takeZoneEdit (.bytes b) = some (n, act) → Offered s l .zoneEdit (.bytes b) →
      exec (zoneCommand l act) s = .next (takeEdit l (.zone n act) (takeHead l s)) := fun hz ho => by
    rw [← zoneTaker_of_taken hz, exec_zoneEdit_offered ho, serveZoneEdit, hz]
  cases h with
  | write _ b z hz => exact zone hz ho
  | delete _ b hz => exact zone hz ho
  | suspend _ b hz => exact zone hz ho
  | resume _ b hz => exact zone hz ho
  | set => exact exec_setGradeSet_offered ho nofun
  | clear => exact exec_setGradeClear_offered ho
  | geometry _ g hg => rw [exec_setGeometry_offered ho]; simp [serveSetGeometry, hg]

/-! ## An edit applied, queued or refused (R44, R50) -/

/-- An edit answers the request it was, whatever comes of it. -/
theorem editForm_request {c : Instr} {l : Link} {r : Request} {d : Payload} {e : Edit} (h : EditForm c l r d e)
    (k : Link) (s : State) : (applyEdit k e s).1.1 = r ∧ (busyEcho e).1 = r := by cases h <;> exact ⟨rfl, rfl⟩

/-- An edit performed as its request is taken: applied, and answered after its effects. -/
theorem performEdit_takeHead {s : State} {l : Link} (e : Edit) (ha : (portOf s l).state = .active) :
    performEdit (takeHead l s) ⟨l, true, e⟩ =
      answer l (applyEdit l e s).1.1 (applyEdit l e s).1.2.1 (applyEdit l e s).1.2.2 (applyEdit l e s).2 := by
  have applied : applyEdit l e (takeHead l s) =
      ((applyEdit l e s).1, { (applyEdit l e s).2 with ports := (takeHead l s).ports }) := by
    conv_lhs => rw [takeHead_eq]
    exact applyEdit_withPorts _ l e s
  have ports : { (applyEdit l e s).2 with ports := s.ports } = (applyEdit l e s).2 := by rw [← applyEdit_ports l e s]
  unfold performEdit
  rw [applied]
  exact (reply_takeHead (t := { (applyEdit l e s).2 with ports := (takeHead l s).ports }) _ _ _ ha rfl).trans
    (congrArg _ ports)

/-- A ZONE_EDIT whose number, action, kind or width R43 refuses is not taken. -/
theorem takeZoneEdit_refused {b : List Byte}
    (h : 32 ≤ byteAt b 0 ∨ 4 ≤ byteAt b 1 ∨
      (byteAt b 1 = 0 ∧ (4 ≤ byteAt b 2 ∨ (wordAt b 4 = wordAt b 6 ∧ flagOf (byteAt b 3) 0 = false)))) :
    takeZoneEdit (.bytes b) = none := by
  simp only [takeZoneEdit]
  split
  · rfl
  · rename_i number
    obtain h | h | ⟨h, kind⟩ := h
    · exact absurd h number
    · obtain ⟨k, hk⟩ := Nat.exists_eq_add_of_le' h
      rw [hk]
      rfl
    · have refused : takeZoneWrite b = none := by
        unfold takeZoneWrite readZoneBody
        obtain kind | ⟨width, full⟩ := kind
        · obtain ⟨k, hk⟩ := Nat.exists_eq_add_of_le' kind
          rw [hk]
          rfl
        · cases readKind (byteAt b 2) with
          | none => rfl
          | some k => simp [sectorWidth, circle, width, full]
      simp [h, refused]

/-- The taking of an edit request while the queue is applied is its own command's (R50; log 29). -/
theorem exec_takerOf_edit {s : State} {l : Link} {f : RxFrame} (h : AtHead s l f)
    (he : requestOf (frameCode f) = some .zoneEdit ∨ requestOf (frameCode f) = some .setGrade ∨
      requestOf (frameCode f) = some .setGeometry) :
    exec (takerOf l f) s = .next (takeEditFrame l s) := by
  have head := atHead_frame h
  obtain hc | hc | hc := he
  · simp only [takeEditFrame, head, hc]
    rw [takerOf_zoneEdit l hc, exec_zoneTaker]
  · simp only [takeEditFrame, head, hc, takerOf]
    split <;> rfl
  · simp only [takeEditFrame, head, hc, takerOf]
    rfl

theorem takeEditFrame_other {s : State} {l : Link} {f : RxFrame} (h : AtHead s l f)
    (hz : requestOf (frameCode f) ≠ some .zoneEdit) (hp : requestOf (frameCode f) ≠ some .setGrade)
    (hg : requestOf (frameCode f) ≠ some .setGeometry) : takeEditFrame l s = s := by
  unfold takeEditFrame
  rw [atHead_frame h]
  dsimp only
  split
  · exact absurd ‹_› hz
  · exact absurd ‹_› hp
  · exact absurd ‹_› hg
  · rfl

/-- Settles O24: a request that passes its checks by `takeEdit`, one that fails them by its own check. -/
theorem editsApplyOrWait : Obligations.EditsApplyOrWait := by
  refine ⟨fun s c l r d e hf ho => ?_, fun s l f h => ?_, fun s q rest hq => ?_, fun s l b ho hb => ?_,
    fun s l p ho => ?_, fun s l g ho hg => ?_⟩
  · have active := offered_active ho
    obtain ⟨request, busy⟩ := editForm_request hf l s
    rw [exec_editForm hf ho, takeEdit]
    refine ⟨fun hi => ?_, fun hi hw => ?_, fun hi hw => ?_⟩
    · rw [if_pos (by simpa [solverIdle] using hi), performEdit_takeHead e active, request]
    · rw [if_neg (by simpa [solverIdle] using hi), if_pos (by simpa [Config.editCapacity] using hw)]
      cases l <;> rfl
    · rw [if_neg (by simpa [solverIdle] using hi), if_neg (by simpa [Config.editCapacity] using hw), busy,
        reply_takeHead_only _ _ _ active]
  · exact ⟨exec_takerOf_edit h, takeEditFrame_other h⟩
  · exact applyHead_cons hq
  · rw [exec_zoneEdit_offered ho, serveZoneEdit, takeZoneEdit_refused hb]
    exact congrArg Host.Outcome.next (reply_takeHead_only _ _ _ (offered_active ho))
  · rw [exec_setGradeSet_offered ho nofun]
    exact congrArg Host.Outcome.next (reply_takeHead_only _ _ _ (offered_active ho))
  · have crossed : rangesCrossed g = true := by simpa [rangesCrossed, or_assoc] using hg
    rw [exec_setGeometry_offered ho, serveSetGeometry, if_pos crossed]
    exact congrArg Host.Outcome.next (reply_takeHead_only _ _ _ (offered_active ho))

end Sys2Proof.Proofs
end

section
/-! SUPPORT. The FAULT notices of the image load (R151): the ring and the items after the FAULTED items are
announced. -/

namespace Sys2Proof.Proofs

open Sys2Proof Sys2Proof.Machine Sys2Proof.Laws

/-! ## A notice produced while both readers have room (R154) -/

/-- The watermark test may disarm its reader, and leaves the rest of the ring (R160). -/
theorem watermarkTest_ring (r : Reader) (s : State) :
    ∃ armed, (watermarkTest r s).ring = setReader r { readerOf s.ring r with armed := armed } s.ring := by
  obtain h | ⟨_, _, h⟩ := watermarkTest_cases r s <;> rw [h]
  · exact ⟨(readerOf s.ring r).armed, (setReader_readerOf r s.ring).symm⟩
  · exact ⟨false, by simp⟩

/-- The ring with one more notice, written at the put index. -/
structure OneMore (n : Notice) (s t : State) : Prop where
  items : t.items = changeAt s.items n.item (pointAt s.ring.put)
  slots : t.ring.slots = s.ring.slots.set s.ring.put (some n)
  put : t.ring.put = ringPlus s.ring.put 1
  readers : ∀ r, ∃ armed, readerOf t.ring r =
    { readerOf s.ring r with unread := (readerOf s.ring r).unread + 1, armed := armed }

theorem produceNotice_room (n : Notice) {s : State} (h : ∀ r, (readerOf s.ring r).unread < 32) :
    OneMore n s (produceNotice n s) := by
  have service : s.ring.service.unread < 32 := h .service
  have cab : ¬32 ≤ s.ring.cab.unread := Nat.not_le.2 (h .cab)
  rw [produceNotice_written n s service, if_neg cab]
  obtain ⟨a, first⟩ := watermarkTest_ring .cab (putNotice n s)
  obtain ⟨b, second⟩ := watermarkTest_ring .service (watermarkTest .cab (putNotice n s))
  rw [first] at second
  refine ⟨by simp [putNotice], by rw [second]; simp [putNotice], by rw [second]; simp [putNotice], fun r => ?_⟩
  rw [second]
  cases r
  · exact ⟨a, rfl⟩
  · exact ⟨b, rfl⟩

/-! ## The FAULTED items announced one after another -/

/-- The FAULTED items numbered below `n`, in ascending item number. -/
def faultsBelow (s : State) (n : Nat) : List Nat :=
  (List.range n).filter fun k => decide ((itemAt s k).state = .faulted)

theorem mem_faultsBelow {s : State} {n k : Nat} : k ∈ faultsBelow s n ↔ k < n ∧ (itemAt s k).state = .faulted := by
  simp [faultsBelow]

theorem faultsBelow_length (s : State) (n : Nat) : (faultsBelow s n).length ≤ n :=
  (List.length_filter_le _ _).trans_eq List.length_range

theorem faultsBelow_succ (s : State) (n : Nat) :
    faultsBelow s (n + 1) = if (itemAt s n).state = .faulted then faultsBelow s n ++ [n] else faultsBelow s n := by
  simp only [faultsBelow, List.range_succ, List.filter_append, List.filter_cons, List.filter_nil]
  by_cases h : (itemAt s n).state = .faulted <;> simp [h]

/-- `t` is `s` after the FAULTED items numbered below `n` are announced into the empty ring (R151). -/
structure Announced (s : State) (n : Nat) (t : State) : Prop where
  only : ScheduleOnly s t
  items : t.items.length = s.items.length
  size : t.ring.slots.length = 32
  put : t.ring.put = (faultsBelow s n).length
  slots : ∀ j, t.ring.slots.getD j none = (faultsBelow s n)[j]?.map fun k => faultNotice s k (itemAt s k)
  readers : ∀ r, ∃ armed, readerOf t.ring r =
    { readerOf s.ring r with unread := (faultsBelow s n).length, armed := armed }
  announced : ∀ j k, (faultsBelow s n)[j]? = some k → itemAt t k = { itemAt s k with lastNotice := some j }
  others : ∀ k, k ∉ faultsBelow s n → itemAt t k = itemAt s k

/-- An empty ring: 32 free positions, and nothing unread. -/
structure RingEmpty (g : Ring) : Prop where
  slots : g.slots = List.replicate 32 none
  put : g.put = 0
  unread : ∀ r, (readerOf g r).unread = 0

theorem announced_zero {s : State} (h : RingEmpty s.ring) : Announced s 0 s where
  only := .refl s
  items := rfl
  size := by simp [h.slots]
  put := h.put
  slots j := by
    rw [h.slots, List.getD_eq_getElem?_getD, List.getElem?_getD_replicate_default_eq]
    rfl
  readers r := ⟨(readerOf s.ring r).armed, by
    have unread := h.unread r
    cases hr : readerOf s.ring r
    simp_all [faultsBelow]⟩
  announced j k hj := by simp [faultsBelow] at hj
  others _ _ := rfl

/-- The item of a number after one item is changed. -/
theorem itemAt_changeAt (s : State) {n : Nat} (f : Item → Item) (h : n < s.items.length)
    {t : State} (ht : t.items = changeAt s.items n f) (k : Nat) :
    itemAt t k = if k = n then f (itemAt s k) else itemAt s k := by
  simp only [itemAt, ht, changeAt, List.getD_eq_getElem?_getD, List.getElem?_modify]
  split
  · subst_vars
    simp [h]
  · simp [Ne.symm ‹_›]

/-- The notice of a FAULTED item follows from its fields and the basis values handed on. -/
theorem faultNotice_congr {s t : State} (h : t.duty = s.duty) (k : Nat) (i : Item) :
    faultNotice t k i = faultNotice s k i := by
  unfold faultNotice basisNow
  rw [h]

theorem faultNotice_item (s : State) (k : Nat) (i : Item) : (faultNotice s k i).item = k := by
  unfold faultNotice
  split <;> rfl

/-- What a place of a list with one more entry at its end holds. -/
theorem getElem?_snoc {α : Type} (xs : List α) (x : α) (j : Nat) :
    (xs ++ [x])[j]? = if j = xs.length then some x else xs[j]? := by
  split
  · rw [‹j = _›, List.getElem?_concat_length]
  · by_cases hj : j < xs.length
    · exact List.getElem?_append_left hj
    · rw [List.getElem?_eq_none (by simp; omega), List.getElem?_eq_none (by omega)]

theorem announced_succ {s t : State} {n : Nat} (h : Announced s n t) (hn : n < 24) (hi : n < s.items.length) :
    Announced s (n + 1) (announceFault t n) := by
  have fresh : n ∉ faultsBelow s n := fun hm => Nat.lt_irrefl n (mem_faultsBelow.1 hm).1
  have here : itemAt t n = itemAt s n := h.others n fresh
  have few : (faultsBelow s n).length < 24 := Nat.lt_of_le_of_lt (faultsBelow_length s n) hn
  unfold announceFault
  rw [here]
  split
  · rename_i hf
    have next : faultsBelow s (n + 1) = faultsBelow s n ++ [n] := by rw [faultsBelow_succ, if_pos hf]
    have room : ∀ r, (readerOf t.ring r).unread < 32 := fun r => by
      obtain ⟨_, hr⟩ := h.readers r
      rw [hr]
      exact few.trans (by decide)
    let notice := faultNotice t n (itemAt s n)
    have one : OneMore notice t (produceNotice notice t) := produceNotice_room _ room
    have changed := itemAt_changeAt t (pointAt t.ring.put) (n := n) (h.items ▸ hi) (by rw [one.items, faultNotice_item])
    refine ⟨h.only.trans ((onSchedule_produceNotice notice).only t), ?_, ?_, ?_, fun j => ?_, fun r => ?_,
      fun j k hj => ?_, fun k hk => ?_⟩
    · rw [one.items]
      simp [changeAt, h.items]
    · rw [one.slots, List.length_set, h.size]
    · rw [one.put, h.put, next, List.length_append]
      exact Nat.mod_eq_of_lt (Nat.lt_of_le_of_lt few (by decide))
    · rw [one.slots, h.put, next, getElem?_snoc, List.getD_eq_getElem?_getD, List.getElem?_set]
      by_cases hj : j = (faultsBelow s n).length
      · rw [if_pos hj.symm, if_pos (by rw [h.size]; omega), if_pos hj]
        exact congrArg some (faultNotice_congr h.only.duty n _)
      · rw [if_neg (Ne.symm hj), if_neg hj, ← List.getD_eq_getElem?_getD]
        exact h.slots j
    · obtain ⟨_, hr⟩ := h.readers r
      obtain ⟨armed, more⟩ := one.readers r
      exact ⟨armed, by rw [more, hr, next, List.length_append]; rfl⟩
    · rw [next, getElem?_snoc] at hj
      rw [changed]
      split at hj
      · obtain rfl := Option.some.inj hj
        rw [if_pos rfl, here, h.put, ‹j = _›]
        rfl
      · have below : k ≠ n := by
          rintro rfl
          exact fresh (List.mem_of_getElem? hj)
        rw [if_neg below, h.announced j k hj]
    · rw [next, List.mem_append, not_or, List.mem_singleton] at hk
      rw [changed, if_neg hk.2, h.others k hk.1]
  · rename_i hf
    have next : faultsBelow s (n + 1) = faultsBelow s n := by rw [faultsBelow_succ, if_neg hf]
    exact ⟨h.only, h.items, h.size, next ▸ h.put, next ▸ h.slots, next ▸ h.readers, next ▸ h.announced, next ▸ h.others⟩

/-- Every FAULTED item announced, in ascending item number. -/
theorem announced_all {s : State} (h : RingEmpty s.ring) (hi : s.items.length = 24) (n : Nat) (hn : n ≤ 24) :
    Announced s n ((List.range n).foldl announceFault s) := by
  induction n with
  | zero => exact announced_zero h
  | succ n ih =>
    rw [List.range_succ, List.foldl_append]
    exact announced_succ (ih (by omega)) (by omega) (by omega)

end Sys2Proof.Proofs
end

section
/-! SUPPORT. The completion of the image load (O6): what each record gives its block, and the SERVICE request. -/

namespace Sys2Proof.Proofs

open Sys2Proof Sys2Proof.Machine Sys2Proof.Laws

/-! ## Records and blocks (step 1 of R186) -/

/-- A record whose failing gives a default: its content when good, the default when missing or failing (R186). -/
theorem goodOr_spec {α : Type} (d : α) (x : Stored α) :
    (∀ a, x = .good a → goodOr d x = a) ∧ (x = .missing ∨ x = .bad → goodOr d x = d) := by
  refine ⟨?_, ?_⟩
  · rintro a rfl
    rfl
  · rintro (rfl | rfl) <;> rfl

theorem loadZone_spec (x : Stored (Option StoredZone)) :
    (x = .missing ∨ x = .good none → loadZone x = .empty) ∧ (x = .bad → loadZone x = .faulted) ∧
      ∀ b, (x = .good (some ⟨true, b⟩) → loadZone x = .active .site b) ∧
        (x = .good (some ⟨false, b⟩) → loadZone x = .suspended .site b) := by
  refine ⟨?_, ?_, fun b => ⟨?_, ?_⟩⟩
  · rintro (rfl | rfl) <;> rfl
  all_goals
    rintro rfl
    rfl

theorem loadPlane_spec (x : Stored (Option PlaneBody)) :
    (x = .missing ∨ x = .good none → loadPlane x = .absent) ∧ (x = .bad → loadPlane x = .faulted) ∧
      ∀ b, x = .good (some b) → loadPlane x = .present .site b := by
  refine ⟨?_, ?_, fun b => ?_⟩
  · rintro (rfl | rfl) <;> rfl
  all_goals
    rintro rfl
    rfl

theorem loadGeometry_spec (x : Stored Geometry) :
    (x = .missing → loadGeometry x = .absent) ∧ (x = .bad → loadGeometry x = .faulted) ∧
      ∀ g, x = .good g → loadGeometry x = .present g := by
  refine ⟨?_, ?_, fun g => ?_⟩
  all_goals
    rintro rfl
    rfl

theorem loadAccum_spec (x : Stored AccumValue) :
    (∀ v, x = .good v → loadAccum x = v) ∧ (x = .bad → loadAccum x = ⟨0, true⟩) ∧
      (x = .missing → loadAccum x = ⟨0, false⟩) := by
  refine ⟨fun v => ?_, ?_, ?_⟩
  all_goals
    rintro rfl
    rfl

/-- Without a PRESENT geometry the last good values are 0: the working ranges admit every angle (R16, R35). -/
theorem loadSolver_good (m : Image) (v : Solver) :
    (∀ g, m.geometry = .good g → (loadSolver m v).good = saturateGood g ⟨0, 0, 0, 0, 0⟩) ∧
      (m.geometry = .missing ∨ m.geometry = .bad → (loadSolver m v).good = ⟨0, 0, 0, 0, 0⟩) := by
  refine ⟨fun g hg => ?_, fun h => ?_⟩
  · simp [loadSolver, hg, loadGeometry, geometryFields]
  · obtain h | h := h <;> simp only [loadSolver, h] <;> decide

/-! ## Items (R141) -/

theorem stateAt_ne_faulted (f : ItemFields) (p : Nat) : stateAt f p ≠ .faulted := by
  have rank := stateAt_rank f p
  intro h
  simp [h, stateRank] at rank

/-- Acknowledged of an item formed at load is clear while it is DORMANT, which no due item is (log 28). -/
theorem isDue_unacknowledged_iff (t : ItemState) (ack : Bool) :
    isDue t = true ∧ (ack && decide (t ≠ .dormant)) = false ↔ (t = .due ∨ t = .overdue) ∧ ack = false := by
  cases t <;> simp [isDue]

theorem firstRepeat_eq (f : ItemFields) (basis : Nat) :
    firstRepeat f basis =
      if f.repeatEvery ≠ 0 ∧ basis + f.repeatEvery ≤ 4294967295 then some (basis + f.repeatEvery) else none := by
  unfold firstRepeat Config.basisMax
  split
  · rw [if_neg (by omega)]
  · rw [if_pos (by omega)]

/-- An item formed at load repeats from the present basis value while it is due and not acknowledged (R141; log 28). -/
theorem formItem_nextRepeat (f : ItemFields) (basis : Nat) :
    (formItem f basis).nextRepeat =
      if ((formItem f basis).state = .due ∨ (formItem f basis).state = .overdue) ∧ f.acknowledged = false ∧
        f.repeatEvery ≠ 0 ∧ basis + f.repeatEvery ≤ 4294967295 then some (basis + f.repeatEvery) else none := by
  simp only [← and_assoc (c := f.repeatEvery ≠ 0 ∧ _)]
  rw [ite_and, ← firstRepeat_eq]
  exact if_congr (isDue_unacknowledged_iff _ _) rfl rfl

/-- An item from its record, by its outcome and its basis (table of R141). -/
theorem loadItem_spec (d : Duty) (x : Stored (Option ItemFields)) :
    (x = .missing ∨ x = .good none → loadItem d x = emptyItem) ∧ (x = .bad → loadItem d x = faultedItem none) ∧
      ∀ f, x = .good (some f) →
        ((accGet d.values f.basis).lost = true → loadItem d x = faultedItem (some { f with acknowledged := false })) ∧
        ((accGet d.values f.basis).lost = false → loadItem d x = formItem f (basisOf d f.basis)) := by
  refine ⟨?_, ?_, ?_⟩
  · rintro (rfl | rfl) <;> rfl
  · rintro rfl
    rfl
  · rintro f rfl
    exact ⟨fun h => if_pos h, fun h => if_neg (by simp [h])⟩

/-- A FAULTED item as loaded waits for no repeat (R141). -/
theorem loadItem_faulted {d : Duty} {x : Stored (Option ItemFields)} (h : (loadItem d x).state = .faulted) :
    (loadItem d x).nextRepeat = none := by
  unfold loadItem at h ⊢
  split at h
  · split at h
    · rw [if_pos ‹_›]; rfl
    · exact absurd h (stateAt_ne_faulted _ _)
  · rfl
  · rfl

/-- An item asks for the SERVICE ceiling while it is CRITICAL and OVERDUE or FAULTED; one without known fields counts as
CRITICAL (R145). -/
theorem asksService_iff (i : Item) :
    asksService i = true ↔
      (∃ f, i.fields = some f ∧ f.severity = .critical ∧ (i.state = .overdue ∨ i.state = .faulted)) ∨
        i.state = .faulted ∧ i.fields = none := by
  unfold asksService
  cases hf : i.fields <;> cases hs : i.state <;> simp

/-! ## The schedule at load completion -/

/-- The part as its items and its empty ring are loaded, before any FAULT notice (step 2 of R186). -/
def withSchedule (u : State) : State :=
  { u with
    items := u.store.image.items.map (loadItem u.duty), ring := resetRing (goodOr ⟨0, 0⟩ u.store.image.watermark) }

/-- The part as the FAULT notices are produced. -/
def scheduleLoaded (s : State) : State := withSchedule (loadRecords s)

/-- The rest of the load behind the FAULT notices: the SERVICE request, and steps 3 to 5 of R186. -/
def finishLoad (m : State) : State :=
  enterWaiting (loadOutput (loadLadder (loadEvaluator
    { m with ladder := { m.ladder with service := serviceWanted m.items } })))

theorem loadSchedule_eq (u : State) :
    loadSchedule u =
      let m := (List.range 24).foldl announceFault (withSchedule u)
      { m with ladder := { m.ladder with service := serviceWanted m.items } } := by
  unfold loadSchedule withSchedule Config.itemCount
  rfl

/-- LOAD_COMPLETION with every record examined: the FAULT notices between the records and the rest. -/
theorem exec_loadCompletion {s : State} (hp : s.part = .loading) (he : 73 ≤ s.examined)
    (hi : s.store.image.items.length = 24) :
    ∃ m, Announced (scheduleLoaded s) 24 m ∧ exec .loadCompletion s = .next (finishLoad m) := by
  refine ⟨(List.range 24).foldl announceFault (scheduleLoaded s), ?_, ?_⟩
  · exact announced_all ⟨rfl, rfl, fun r => by cases r <;> rfl⟩ (by rw [← hi]; exact List.length_map _) 24 le_rfl
  · have size : imageOrder.length = 73 := by simp [imageOrder, allAccums, Config.zoneCount, Config.itemCount]
    have examined : loadExamined s = true := by simp [loadExamined, hp, size, he]
    simp only [exec, execLoadCompletion, examined, if_true, completeLoad, loadSchedule_eq, finishLoad,
      scheduleLoaded]

/-! ## The parts of the statement -/

section
variable {s m : State}

theorem itemAt_scheduleLoaded (s : State) (k : Nat) :
    itemAt (scheduleLoaded s) k = loadItem (loadDuty s.store.image) (s.store.image.items.getD k .missing) :=
  List.getD_map s.store.image.items .missing (loadItem (loadDuty s.store.image))

/-- The accumulators are those of the image's records. -/
theorem Announced.loadedDuty (h : Announced (scheduleLoaded s) 24 m) : (finishLoad m).duty = loadDuty s.store.image :=
  h.only.duty

/-- An announced item differs from the item as loaded in its newest notice's position alone. -/
theorem Announced.item {n : Nat} (h : Announced s n m) (k : Nat) :
    ∃ p, itemAt m k = { itemAt s k with lastNotice := p } := by
  by_cases hk : k ∈ faultsBelow s n
  · obtain ⟨j, hj⟩ := List.getElem?_of_mem hk
    exact ⟨some j, h.announced j k hj⟩
  · exact ⟨_, h.others k hk⟩

theorem Announced.faults {n : Nat} (h : Announced s n m) : faultsBelow m n = faultsBelow s n := by
  unfold faultsBelow
  congr
  funext k
  obtain ⟨p, hk⟩ := h.item k
  rw [hk]

/-- The items as loaded, the notices told among them (R141, R151). -/
theorem Announced.loadedItems (h : Announced (scheduleLoaded s) 24 m) (k : Nat) :
    let t := finishLoad m
    let x := s.store.image.items.getD k .missing
    (x = .missing ∨ x = .good none → itemAt t k = emptyItem) ∧
      (x = .bad → (itemAt t k).state = .faulted ∧ (itemAt t k).fields = none) ∧
      ∀ f, x = .good (some f) →
        ((accGet t.duty.values f.basis).lost = true →
          (itemAt t k).state = .faulted ∧ (itemAt t k).fields = some { f with acknowledged := false }) ∧
        ((accGet t.duty.values f.basis).lost = false → itemAt t k = formItem f (basisOf t.duty f.basis)) := by
  have items : itemAt (finishLoad m) k = itemAt m k := rfl
  obtain ⟨p, changed⟩ := h.item k
  have kept : (itemAt (scheduleLoaded s) k).state ≠ .faulted → itemAt m k = itemAt (scheduleLoaded s) k :=
    fun sound => h.others k fun hk => sound (mem_faultsBelow.1 hk).2
  dsimp only
  rw [h.loadedDuty, items]
  rw [itemAt_scheduleLoaded] at changed kept
  obtain ⟨empty, bad, good⟩ := loadItem_spec (loadDuty s.store.image) (s.store.image.items.getD k .missing)
  refine ⟨fun hx => ?_, fun hx => ?_, fun f hx => ⟨fun hl => ?_, fun hl => ?_⟩⟩
  · rw [empty hx] at kept
    exact kept nofun
  · rw [changed, bad hx]
    exact ⟨rfl, rfl⟩
  · rw [changed, (good f hx).1 hl]
    exact ⟨rfl, rfl⟩
  · rw [(good f hx).2 hl] at kept
    exact kept (stateAt_ne_faulted _ _)

/-- The FAULT notice of an item at load: its basis value and severity, or 0 and CRITICAL without known fields (R151). -/
theorem faultNotice_scheduleLoaded (s : State) (k : Nat) (i : Item) :
    (i.fields = none → faultNotice (scheduleLoaded s) k i = ⟨k, .fault, .faulted, 0, .critical⟩) ∧
      ∀ f, i.fields = some f → faultNotice (scheduleLoaded s) k i =
        ⟨k, .fault, .faulted, basisOf (loadDuty s.store.image) f.basis, f.severity⟩ := by
  refine ⟨fun none => ?_, fun f some => ?_⟩
  · simp only [faultNotice, none]
  · have handed : basisNow (scheduleLoaded s) f.basis = basisOf (loadDuty s.store.image) f.basis :=
      accGet_sixAccums _ _
    simp only [faultNotice, some, handed]

/-- The ring as loaded: one FAULT notice for each FAULTED item, in ascending item number (R151, R153). -/
theorem Announced.loadedRing (h : Announced (scheduleLoaded s) 24 m) :
    let t := finishLoad m
    let faults := (List.range 24).filter fun k => decide ((itemAt t k).state = .faulted)
    t.ring.put = faults.length ∧
      (∀ r, (readerOf t.ring r).get = 0 ∧ (readerOf t.ring r).unread = faults.length ∧
        (readerOf t.ring r).lost = false) ∧
      (∀ j k, faults[j]? = some k →
        (itemAt t k).lastNotice = some j ∧ (itemAt t k).nextRepeat = none ∧
        ((itemAt t k).fields = none → t.ring.slots.getD j none = some ⟨k, .fault, .faulted, 0, .critical⟩) ∧
        ∀ f, (itemAt t k).fields = some f →
          t.ring.slots.getD j none = some ⟨k, .fault, .faulted, basisOf t.duty f.basis, f.severity⟩) ∧
      ∀ j, faults.length ≤ j → t.ring.slots.getD j none = none := by
  have faults : ((List.range 24).filter fun k => decide ((itemAt (finishLoad m) k).state = .faulted)) =
      faultsBelow (scheduleLoaded s) 24 := h.faults
  have ring : (finishLoad m).ring = m.ring := rfl
  dsimp only
  rw [faults, ring, h.loadedDuty]
  refine ⟨h.put, fun r => ?_, fun j k hj => ?_, fun j hj => ?_⟩
  · obtain ⟨armed, reader⟩ := h.readers r
    rw [reader]
    cases r <;> exact ⟨rfl, rfl, rfl⟩
  · have faulted := (mem_faultsBelow.1 (List.mem_of_getElem? hj)).2
    have item : itemAt (finishLoad m) k = { itemAt (scheduleLoaded s) k with lastNotice := some j } :=
      h.announced j k hj
    have slot : m.ring.slots.getD j none = some (faultNotice (scheduleLoaded s) k (itemAt (scheduleLoaded s) k)) := by
      rw [h.slots, hj]
      rfl
    obtain ⟨unknown, known⟩ := faultNotice_scheduleLoaded s k (itemAt (scheduleLoaded s) k)
    rw [item, slot]
    refine ⟨rfl, ?_, fun hf => congrArg some (unknown hf), fun f hf => congrArg some (known f hf)⟩
    rw [itemAt_scheduleLoaded] at faulted ⊢
    exact loadItem_faulted faulted
  · rw [h.slots, List.getElem?_eq_none hj]
    rfl

/-- The SERVICE request stands exactly while an item asks for it (R145). -/
theorem finishLoad_service (m : State) :
    (finishLoad m).ladder.service = true ↔ ∃ i ∈ (finishLoad m).items,
      (∃ f, i.fields = some f ∧ f.severity = .critical ∧ (i.state = .overdue ∨ i.state = .faulted)) ∨
        i.state = .faulted ∧ i.fields = none := by
  simp only [← asksService_iff]
  exact List.any_eq_true

/-- The watermarks of both readers are the stored ones, or 0 (R153). -/
theorem Announced.loadedWatermarks (h : Announced (scheduleLoaded s) 24 m) :
    let w := goodOr ⟨0, 0⟩ s.store.image.watermark
    (finishLoad m).ring.cab.watermark = w.cab ∧ (finishLoad m).ring.service.watermark = w.service := by
  obtain ⟨_, cab⟩ := h.readers .cab
  obtain ⟨_, service⟩ := h.readers .service
  exact ⟨congrArg ReaderState.watermark cab, congrArg ReaderState.watermark service⟩

/-- The table, solver, aid unit and ladder configuration are those of the image's records. -/
theorem Announced.loadedBlocks (h : Announced (scheduleLoaded s) 24 m) :
    (finishLoad m).table = (loadRecords s).table ∧ (finishLoad m).solver = loadSolver s.store.image s.solver ∧
      (finishLoad m).aid = (loadRecords s).aid ∧ (finishLoad m).ladder.config = (loadRecords s).ladder.config ∧
      (finishLoad m).ladder.economy = (loadRecords s).ladder.economy :=
  have config : m.ladder.config = (loadRecords s).ladder.config := congrArg Ladder.config h.only.ladder
  have economy : m.ladder.economy = (loadRecords s).ladder.economy := congrArg Ladder.economy h.only.ladder
  ⟨h.only.table, h.only.solver, h.only.aid, config, economy⟩

end

/-- Settles O6: each block from its record's outcome, then the items and the ring as the FAULT notices leave them. -/
theorem loadCompletionFillsBlocks : Obligations.LoadCompletionFillsBlocks := by
  intro s hp he _ hi
  obtain ⟨m, told, ex⟩ := exec_loadCompletion hp he hi
  obtain ⟨table, solver, aid, config, economy⟩ := told.loadedBlocks
  have zone : ∀ n, zoneAt (finishLoad m) n = loadZone (s.store.image.zones.getD n .missing) := fun n => by
    rw [zoneAt, table]
    exact List.getD_map s.store.image.zones .missing loadZone
  have duty := told.loadedDuty
  refine ⟨finishLoad m, ex, rfl, ?_, ?_, ?_, ?_, ?_, ?_, ?_, ?_, ?_, ?_, ?_, ?_, ?_, told.loadedRing,
    finishLoad_service m, ?_⟩
  · intro i _
    rw [zone]
    exact loadZone_spec _
  · rw [table]
    exact loadPlane_spec _
  · rw [solver]
    exact loadGeometry_spec _
  · rw [solver]
    exact loadSolver_good _ _
  · rw [solver]
    exact goodOr_spec _ _
  · rw [aid]
    exact goodOr_spec _ _
  · rw [aid]
    exact goodOr_spec _ _
  · rw [config]
    exact goodOr_spec _ _
  · rw [economy]
    exact goodOr_spec _ _
  · rw [duty]
    exact goodOr_spec _ _
  · rw [duty]
    exact ⟨rfl, rfl, rfl, rfl, rfl⟩
  · intro a
    have value : accGet (finishLoad m).duty.values a = loadAccum (accGet s.store.image.accumulators a) := by
      rw [duty]
      exact accGet_sixAccums _ _
    rw [value]
    exact loadAccum_spec _
  · intro k _
    obtain ⟨empty, bad, good⟩ := told.loadedItems k
    refine ⟨empty, bad, fun f hf => ⟨(good f hf).1, fun hl => ?_⟩⟩
    rw [(good f hf).2 hl]
    exact ⟨rfl, rfl, formItem_nextRepeat f _, rfl⟩
  · obtain ⟨good, default⟩ := goodOr_spec ⟨0, 0⟩ s.store.image.watermark
    obtain ⟨cab, service⟩ := told.loadedWatermarks
    rw [cab, service]
    exact ⟨fun w hw => by rw [good w hw]; exact ⟨rfl, rfl⟩, fun hw => by rw [default hw]; exact ⟨rfl, rfl⟩⟩

end Sys2Proof.Proofs
end

section
/-! SUPPORT. Commands that leave the zones and the grade plane alone and keep the sizes of the numbered tables and the
consistency of the stamp slots (O52, O59): one lemma for each operation that the meanings share, and one for the commands
other than resets and edits. -/

namespace Sys2Proof.Proofs

open Sys2Proof Sys2Proof.Machine Sys2Proof.Laws

/-! ## The relation -/

/-- The sizes of the numbered tables, as `ShapeInv` lists them. -/
def sizes (s : State) : List Nat :=
  [s.table.zones.length, s.evaluator.inside.length, s.evaluator.clear.length, s.items.length, s.ring.slots.length,
    s.store.image.zones.length, s.store.image.items.length]

theorem shapeInv_iff (s : State) : ShapeInv s ↔ sizes s = [32, 33, 33, 24, 32, 32, 24] := by
  simp [ShapeInv, sizes]

/-- The invariant of O52: every numbered table has its size and every stamp slot is consistent. -/
def Sound (s : State) : Prop := ShapeInv s ∧ StampInv s

theorem Sound.of_same {s t : State} (h : Sound s) (hs : sizes t = sizes s := by simp [sizes])
    (hm : t.stamps = s.stamps := by simp) : Sound t := by
  obtain ⟨shape, stamps⟩ := h
  rw [shapeInv_iff] at shape
  exact ⟨(shapeInv_iff t).2 (hs.trans shape), by rw [StampInv, hm]; exact stamps⟩

/-- The invariant does not look at the edit queue. -/
theorem Sound.withQueue {s : State} (h : Sound s) (qs : List QueuedEdit) :
    Sound { s with table := { s.table with queue := qs } } := h.of_same rfl rfl

/-- From `s` to `t` the invariant is kept, and no zone entry and no grade plane changes. -/
structure Steady (s t : State) : Prop where
  sound : Sound s → Sound t
  zones : t.table.zones = s.table.zones
  plane : t.table.plane = s.table.plane

theorem Steady.refl (s : State) : Steady s s := ⟨id, rfl, rfl⟩

theorem Steady.trans {s t u : State} (h : Steady s t) (k : Steady t u) : Steady s u where
  sound := k.sound ∘ h.sound
  zones := k.zones.trans h.zones
  plane := k.plane.trans h.plane

/-- A change that leaves sizes, stamps and table alone is steady. -/
theorem Steady.of_same {s t : State} (hs : sizes t = sizes s := by simp [sizes])
    (hm : t.stamps = s.stamps := by simp) (ht : t.table = s.table := by simp) : Steady s t :=
  ⟨fun h => h.of_same hs hm, by rw [ht], by rw [ht]⟩

theorem Steady.foldl {α : Type} {f : State → α → State} (h : ∀ s a, Steady s (f s a)) (xs : List α) (s : State) :
    Steady s (xs.foldl f s) := by
  induction xs generalizing s with
  | nil => exact .refl s
  | cons x xs ih => exact (h s x).trans (ih _)

/-! ## Sizes -/

@[simp] theorem length_changeAt {α : Type} (xs : List α) (k : Nat) (f : α → α) : (changeAt xs k f).length = xs.length := by
  simp [changeAt]

/-- A trigger copies the image's records to write; it writes none. -/
@[simp] theorem triggerSave_image (s : State) : (triggerSave s).store.image = s.store.image := by
  obtain ⟨_, h⟩ | ⟨v, _, ⟨_, h⟩ | ⟨_, h⟩⟩ := triggerSave_cases s <;> simp [h, startSave]

@[simp] theorem markDirty_image (r : RecordId) (s : State) : (markDirty r s).store.image = s.store.image :=
  triggerSave_image (markOnly r s)

/-- A written record takes the place of the one of its name. -/
@[simp] theorem putRecord_zones_length (ok : Bool) (r : SnapRecord) (m : Image) :
    (putRecord ok r m).zones.length = m.zones.length := by cases r <;> simp [putRecord]

@[simp] theorem putRecord_items_length (ok : Bool) (r : SnapRecord) (m : Image) :
    (putRecord ok r m).items.length = m.items.length := by cases r <;> simp [putRecord]

/-! ## Ports, answers, store and ladder -/

theorem steady_setPort (l : Link) (p : Port) (s : State) : Steady s (setPort l p s) := .of_same

theorem steady_sendNotice (l : Link) (b : TxBody) (s : State) : Steady s (sendNotice l b s) := steady_setPort _ _ s

/-- An answer is steady behind what it follows. -/
theorem Steady.reply {s t : State} (h : Steady s t) (l : Link) (r : Request) (x : Result) (e : Echo) :
    Steady s (reply l r x e t) := h.trans (steady_setPort _ _ t)

theorem steady_reply (l : Link) (r : Request) (x : Result) (e : Echo) (s : State) : Steady s (reply l r x e s) :=
  steady_setPort _ _ s

theorem steady_triggerSave (s : State) : Steady s (triggerSave s) := .of_same

theorem steady_markDirty (r : RecordId) (s : State) : Steady s (markDirty r s) := .of_same

@[simp] theorem elapse_image (ms : Nat) (s : State) : (elapse ms s).store.image = s.store.image := rfl

theorem steady_elapse (ms : Nat) (s : State) : Steady s (elapse ms s) := .of_same rfl rfl rfl

theorem steady_retarget (L : Ladder) (s : State) : Steady s (retarget L s) := .of_same

theorem steady_sendDropped (s : State) (d : Drop) : Steady s (sendDropped s d) := .of_same

theorem steady_ladderEvent (L : Ladder) (drops : List Drop) (s : State) : Steady s (ladderEvent L drops s) :=
  (steady_retarget _ s).trans (.foldl steady_sendDropped _ _)

theorem steady_syncService (s : State) : Steady s (syncService s) := .of_same

/-! ## The ring and the schedule -/

theorem steady_releasePosition (s : State) (p : Nat) : Steady s (releasePosition s p) := by
  obtain ⟨h, -⟩ := releasePosition_spec s p
  rw [h]
  exact .of_same

theorem steady_releaseFrom (before : Nat) (s : State) : Steady s (releaseFrom before s) :=
  .foldl steady_releasePosition _ s

/-- Another reader's cursor in the ring. -/
theorem steady_setReader (r : Reader) (x : ReaderState) (s : State) :
    Steady s { s with ring := setReader r x s.ring } := .of_same

theorem steady_dropCab (s : State) : Steady s (dropCab s) :=
  (steady_setReader .cab (cabDropped s.ring.cab) s).trans (steady_releaseFrom _ _)

theorem steady_putNotice (n : Notice) (s : State) : Steady s (putNotice n s) := .of_same (by simp [sizes, putNotice])

theorem steady_watermarkTest (r : Reader) (s : State) : Steady s (watermarkTest r s) := by
  obtain h | ⟨_, _, h⟩ := watermarkTest_cases r s <;> rw [h]
  · exact .refl s
  · exact (steady_setReader r _ s).trans (steady_setPort _ _ _)

theorem steady_produceNotice (n : Notice) (s : State) : Steady s (produceNotice n s) := by
  by_cases h : s.ring.service.unread < 32
  · have room : Steady s (if 32 ≤ s.ring.cab.unread then dropCab s else s) := by
      split
      · exact steady_dropCab s
      · exact .refl s
    rw [produceNotice_written n s h]
    exact ((room.trans (steady_putNotice n _)).trans (steady_watermarkTest .cab _)).trans (steady_watermarkTest .service _)
  · rw [produceNotice_lost n s (by omega)]
    exact .of_same rfl rfl rfl

/-- Item `k` changed. -/
theorem steady_changeItem (k : Nat) (f : Item → Item) (s : State) : Steady s { s with items := changeAt s.items k f } :=
  .of_same

theorem steady_riseItem (k : Nat) (f : ItemFields) (t : ItemState) (basis : Nat) (s : State) :
    Steady s (riseItem k f t basis s) := by
  have told := fun n => (steady_changeItem k (risen f t basis) s).trans (steady_produceNotice n _)
  unfold riseItem
  dsimp only
  split
  · exact (told _).trans (steady_markDirty _ _)
  · exact told _

theorem steady_repeatItem (k : Nat) (i : Item) (f : ItemFields) (basis : Nat) (s : State) :
    Steady s (repeatItem k i f basis s) := by
  unfold repeatItem
  split
  · split
    · exact (steady_changeItem k _ s).trans (steady_produceNotice _ _)
    · exact .refl s
  · exact .refl s

theorem steady_reexamineItem (a : Accum) (basis : Nat) (s : State) (k : Nat) : Steady s (reexamineItem a basis s k) := by
  rw [reexamineItem_eq]
  unfold reexamineAs
  split
  · split
    · split
      · split
        · exact steady_riseItem _ _ _ _ s
        · exact steady_repeatItem _ _ _ _ s
      · exact .refl s
    · exact .refl s
  · exact .refl s

theorem steady_handOnBasis (s : State) (a : Accum) : Steady s (handOnBasis s a) := by
  unfold handOnBasis
  split
  · exact .refl s
  · exact Steady.trans (t := recordHanded _ _ s) .of_same (.foldl (steady_reexamineItem _ _) _ _)

theorem steady_announceFault (s : State) (k : Nat) : Steady s (announceFault s k) := by
  unfold announceFault
  split
  · exact steady_produceNotice _ s
  · exact .refl s

/-! ## Solver, evaluator, output set and stamps -/

theorem steady_performFlag (l : Link) (s : State) (w : WaitingFlag) : Steady s (performFlag l s w) := .of_same

theorem steady_nextSolve (s : State) : Steady s (nextSolve s) := .of_same

theorem steady_intakeSample (x : Sample) (s : State) : Steady s (intakeSample x s) := .of_same

theorem steady_transferOutput (s : State) : Steady s (transferOutput s) := .of_same

theorem steady_sendCabView (s : State) : Steady s (sendCabView s) := .of_same

theorem steady_editRewrite (s : State) : Steady s (editRewrite s) := by
  rw [editRewrite_eq]
  exact .of_same rfl rfl rfl

theorem steady_applyGeometry (g : Geometry) (s : State) : Steady s (applyGeometry g s) := by
  obtain ⟨-, -, -, h⟩ := applyGeometry_spec g s
  have image : (applyGeometry g s).store.image = s.store.image := by simp [applyGeometry]
  rw [h]
  exact .of_same (by simp [sizes, image]) rfl rfl

/-- A STORE_FAULT event reaches its slot. -/
theorem steady_raiseStoreFault (o : FaultOccasion) (r : RecordId) (s : State) : Steady s (raiseStoreFault o r s) where
  sound := fun ⟨shape, entry, breach, late, fault, loss, cycle, _⟩ =>
    ⟨shape, entry, breach, late, fault, loss, cycle, raiseSlot_ok _ _⟩
  zones := rfl
  plane := rfl

theorem steady_raiseStamps (l : Latch) (p : PoseResult) (e : EvalResult) (a : AidsResult) (s : State) :
    Steady s (raiseStamps l p e a s) where
  sound := fun ⟨shape, entry, breach, late, fault, loss, cycle, store⟩ =>
    ⟨shape, raiseAll_ok _ entry, raiseAll_ok _ breach, raiseAll_ok _ late, raiseAll_ok _ fault, loss,
      raiseAll_ok _ cycle, store⟩
  zones := rfl
  plane := rfl

/-- A slot that was read is EMPTY with its hidden overflow clear (R176). -/
theorem steady_readStamp (k : StampKind) (s : State) : Steady s { s with stamps := readStamp s.stamps k } where
  sound := fun ⟨shape, entry, breach, late, fault, loss, cycle, store⟩ => by
    refine ⟨shape, ?_⟩
    cases k
    · exact ⟨fun _ => rfl, breach, late, fault, loss, cycle, store⟩
    · exact ⟨entry, fun _ => rfl, late, fault, loss, cycle, store⟩
    · exact ⟨entry, breach, fun _ => rfl, fault, loss, cycle, store⟩
    · exact ⟨entry, breach, late, fun _ => rfl, loss, cycle, store⟩
    · exact ⟨entry, breach, late, fault, fun _ => rfl, cycle, store⟩
    · exact ⟨entry, breach, late, fault, loss, fun _ => rfl, store⟩
    · exact ⟨entry, breach, late, fault, loss, cycle, fun _ => rfl⟩
  zones := rfl
  plane := rfl

/-- Sample loss raises its stamp and clears every mark (R6, R70). -/
theorem steady_sampleLoss (limit : Nat) (s : State) : Steady s (sampleLoss limit s) := by
  have lost : Steady s (returnAid (evaluatorSampleLoss (raiseLoss limit (losePose (staleIntake s))))) :=
    { sound := fun ⟨⟨zones, _, _, items, slots, image⟩, entry, breach, late, fault, _, cycle, store⟩ =>
        ⟨⟨zones, rfl, rfl, items, slots, image⟩, entry, breach, late, fault, raiseSlot_ok _ _, cycle, store⟩
      zones := rfl
      plane := rfl }
  exact lost.trans (steady_ladderEvent _ _ _)

/-- The hand-offs of R11. -/
theorem steady_handOffs (o : CompletionOrder) (l : Latch) (p : PoseResult) (e : EvalResult) (a : AidsResult)
    (s : State) : Steady s (handOffs o l p e a s) := by
  have write : Steady s (writeEvaluation l p (publishPose l p a s)) := .of_same rfl rfl rfl
  have between : ∀ t, Steady t (expiryBetween o t) := by
    intro t
    unfold expiryBetween
    split
    · exact steady_transferOutput t
    · exact .refl t
  have taken : ∀ t d, Steady t { t with duty := d } := fun _ _ => .of_same rfl rfl rfl
  have duty : ∀ t, Steady t (dutyHandoff (dutyOf l p a) t) := fun t =>
    ((taken t _).trans (.foldl steady_handOnBasis allAccums _)).trans (steady_syncService _)
  have hand : ∀ t, Steady t (handOff o l p a t) := by
    intro t
    unfold handOff
    split
    · exact (steady_ladderEvent _ _ t).trans (duty _)
    · exact (duty t).trans (steady_ladderEvent _ _ _)
  have enter : ∀ t, Steady t (enterRunning t) := by
    intro t
    unfold enterRunning
    split
    · exact .of_same rfl rfl rfl
    · exact .refl t
  exact (((write.trans (between _)).trans (hand _)).trans (steady_raiseStamps l p e a _)).trans (enter _)

/-- The flag requests that wait for a completion (R12). -/
theorem steady_serveFlags (s : State) : Steady s (serveFlags s) := by
  rw [serveFlags_spec]
  exact .of_same rfl rfl rfl

/-- Of the table a usable evaluation changes entry 32's limit alone (R54). -/
theorem withFloorLimit_eq (pts : Points) (t : EnvTable) :
    withFloorLimit pts t = { t with floorLimit := (withFloorLimit pts t).floorLimit } := by
  unfold withFloorLimit
  split
  · split <;> rfl
  · rfl

/-- Stage EVALUATE moves marks, and adds and removes none. -/
theorem steady_stageEvaluate (l : Latch) (p : PoseResult) (s : State) : Steady s (stageEvaluate l p s) := by
  unfold stageEvaluate
  split
  · rename_i pts _
    rw [withFloorLimit_eq]
    exact { sound := fun h => h.of_same (by simp [sizes, evaluatorAfter, marksAfter]) rfl, zones := rfl, plane := rfl }
  · exact .of_same rfl rfl rfl

end Sys2Proof.Proofs
end

section
/-! SUPPORT. Every command but resets and edits leaves the zones and the grade plane alone; every command keeps the sizes
of the numbered tables and the consistency of the stamp slots (O52). -/

namespace Sys2Proof.Proofs

open Sys2Proof Sys2Proof.Machine Sys2Proof.Laws

/-! ## Taking a request -/

/-- What taking a request can do (R181): nothing; its head frame is answered by a check; or a frame that names a request
goes to its owner. -/
theorem takeRequest_cases (me : Instr) (l : Link) (serve : Payload → State → State) (s : State) :
    takeRequest me l serve s = s ∨ (∃ b, takeRequest me l serve s = sendAnswer l true b (takeHead l s)) ∨
      ∃ f, headFrame s l = some f ∧ takeRequest me l serve s = serve f.data (takeHead l s) := by
  unfold takeRequest
  split
  · exact .inl rfl
  · rename_i f hf
    split
    · unfold checkRequest
      split
      · exact .inr (.inl ⟨_, rfl⟩)
      · split
        · exact .inr (.inl ⟨_, rfl⟩)
        · split
          · exact .inr (.inl ⟨_, rfl⟩)
          · split
            · exact .inr (.inl ⟨_, rfl⟩)
            · exact .inr (.inr ⟨f, hf, rfl⟩)
    · exact .inl rfl

/-- A taken request is steady when its owner is. -/
theorem steady_takeRequest {me : Instr} {l : Link} {serve : Payload → State → State}
    (h : ∀ d s, Steady s (serve d s)) (s : State) : Steady s (takeRequest me l serve s) := by
  have taken : Steady s (takeHead l s) := steady_setPort _ _ s
  obtain k | ⟨b, k⟩ | ⟨f, -, k⟩ := takeRequest_cases me l serve s <;> rw [k]
  · exact .refl s
  · exact taken.trans (steady_setPort _ _ _)
  · exact taken.trans (h _ _)

/-! ## The requests at the ladder -/

theorem steady_servePlace (l : Link) (r : Request) (src : Source) (rpm : Int) (duration wait : Option Nat) (s : State) :
    Steady s (servePlace l r src rpm duration wait s) := (steady_ladderEvent _ _ s).reply _ _ _ _

theorem steady_serveWithdraw (l : Link) (r : Request) (src : Source) (s : State) :
    Steady s (serveWithdraw l r src s) := by
  unfold serveWithdraw
  split
  · exact steady_reply _ _ _ _ s
  · exact (steady_ladderEvent _ _ s).reply _ _ _ _

theorem steady_setMode (l : Link) (d : Payload) (s : State) : Steady s (serveSetMode l d s) := by
  unfold serveSetMode
  split
  · split
    · exact steady_servePlace _ _ _ _ _ _ s
    · exact steady_serveWithdraw _ _ _ s
  · exact steady_reply _ _ _ _ s

theorem steady_touchIdle (l : Link) (d : Payload) (s : State) : Steady s (serveTouchIdle l d s) := by
  unfold serveTouchIdle
  split
  · exact steady_servePlace _ _ _ _ _ _ s
  · exact steady_serveWithdraw _ _ _ s
  · exact steady_reply _ _ _ _ s

theorem steady_regen (l : Link) (d : Payload) (s : State) : Steady s (serveRegen l d s) := by
  unfold serveRegen
  split
  · exact steady_servePlace _ _ _ _ _ _ s
  · exact steady_serveWithdraw _ _ _ s
  · exact steady_reply _ _ _ _ s

theorem steady_test (l : Link) (d : Payload) (s : State) : Steady s (serveTest l d s) := by
  unfold serveTest
  split
  · split
    · exact steady_reply _ _ _ _ s
    · exact steady_servePlace _ _ _ _ _ _ s
  · exact steady_servePlace _ _ _ _ _ _ s
  · exact steady_serveWithdraw _ _ _ s
  · exact steady_serveWithdraw _ _ _ s
  · exact steady_reply _ _ _ _ s

theorem steady_setLadder (l : Link) (d : Payload) (s : State) : Steady s (serveSetLadder l d s) := by
  unfold serveSetLadder
  split
  · split
    · exact ((steady_ladderEvent _ _ s).trans (steady_markDirty _ _)).reply _ _ _ _
    · exact steady_reply _ _ _ _ s
  · exact steady_reply _ _ _ _ s

theorem steady_setEconomy (l : Link) (d : Payload) (s : State) : Steady s (serveSetEconomy l d s) := by
  unfold serveSetEconomy
  split
  · exact Steady.reply .of_same _ _ _ _
  · exact steady_reply _ _ _ _ s

/-! ## The requests at the schedule, the ring and the accumulators -/

theorem steady_ack (l : Link) (d : Payload) (s : State) : Steady s (serveAck l d s) := by
  have acked : ∀ k f, Steady s (serveAck.serveAckOn l s k f) := by
    intro k f
    unfold serveAck.serveAckOn
    split
    · exact steady_reply _ _ _ _ s
    · exact ((steady_changeItem k _ s).trans (steady_markDirty _ _)).reply _ _ _ _
  unfold serveAck
  split
  · split
    · exact steady_reply _ _ _ _ s
    · split
      · exact acked _ _
      · exact acked _ _
      · exact acked _ _
      · exact steady_reply _ _ _ _ s
  · exact steady_reply _ _ _ _ s

theorem steady_serviceDone (l : Link) (d : Payload) (s : State) : Steady s (serveServiceDone l d s) := by
  unfold serveServiceDone
  split
  · split
    · exact steady_reply _ _ _ _ s
    · split
      · split
        · exact ((((steady_changeItem _ _ s).trans (steady_syncService _)).trans (steady_produceNotice _ _)).trans
            (steady_markDirty _ _)).reply _ _ _ _
        · exact steady_reply _ _ _ _ s
      · exact steady_reply _ _ _ _ s
  · exact steady_reply _ _ _ _ s

theorem steady_itemDefine (l : Link) (d : Payload) (s : State) : Steady s (serveItemDefine l d s) := by
  unfold serveItemDefine
  split
  · split
    · exact steady_reply _ _ _ _ s
    · split
      · exact ((steady_changeItem _ _ s).trans (steady_markDirty _ _)).reply _ _ _ _
      · exact steady_reply _ _ _ _ s
  · exact steady_reply _ _ _ _ s

theorem steady_itemRetire (l : Link) (d : Payload) (s : State) : Steady s (serveItemRetire l d s) := by
  have answered : ∀ k f, Steady s (replyItem l .itemRetire .ok k
      (markDirty (.item k) (syncService { s with items := changeAt s.items k f }))) := fun k f =>
    (((steady_changeItem k f s).trans (steady_syncService _)).trans (steady_markDirty _ _)).reply _ _ _ _
  unfold serveItemRetire
  split
  · split
    · exact steady_reply _ _ _ _ s
    · split
      · exact steady_reply _ _ _ _ s
      · exact steady_reply _ _ _ _ s
      · exact (answered _ _).trans (steady_sendNotice _ _ _)
      · exact answered _ _
  · exact steady_reply _ _ _ _ s

theorem steady_advanceReader (r : Reader) (p : Nat) (s : State) : Steady s (advanceReader r p s) :=
  ((steady_setReader r _ s).trans (steady_releaseFrom _ _)).trans (steady_setReader r _ _)

theorem steady_ringAdvance (l : Link) (d : Payload) (s : State) : Steady s (serveRingAdvance l d s) := by
  unfold serveRingAdvance
  split
  · dsimp only
    split
    · exact (steady_advanceReader _ _ s).reply _ _ _ _
    · exact steady_reply _ _ _ _ s
  · exact steady_reply _ _ _ _ s

theorem steady_ringClearLost (l : Link) (d : Payload) (s : State) : Steady s (serveRingClearLost l d s) := by
  unfold serveRingClearLost
  split
  · dsimp only
    split
    · exact ((steady_setReader _ _ s).trans (steady_markDirty _ _)).reply _ _ _ _
    · exact (steady_setReader _ _ s).reply _ _ _ _
  · exact steady_reply _ _ _ _ s

theorem steady_accumSet (l : Link) (d : Payload) (s : State) : Steady s (serveAccumSet l d s) := by
  have valued : ∀ v, Steady s { s with duty := v } := fun _ => .of_same rfl rfl rfl
  unfold serveAccumSet
  split
  · dsimp only
    split
    · exact steady_reply _ _ _ _ s
    · exact ((((valued _).trans (steady_handOnBasis _ _)).trans (steady_syncService _)).trans
        (steady_triggerSave _)).reply _ _ _ _
  · exact ((valued _).trans (steady_markDirty _ _)).reply _ _ _ _
  · exact steady_reply _ _ _ _ s

/-! ## The other requests -/

theorem steady_setSolver (l : Link) (d : Payload) (s : State) : Steady s (serveSetSolver l d s) := by
  unfold serveSetSolver
  split
  · split
    · exact Steady.reply .of_same _ _ _ _
    · exact steady_reply _ _ _ _ s
  · exact steady_reply _ _ _ _ s

theorem steady_setAids (l : Link) (d : Payload) (s : State) : Steady s (serveSetAids l d s) := by
  unfold serveSetAids
  split
  · split
    · exact Steady.reply .of_same _ _ _ _
    · exact steady_reply _ _ _ _ s
  · split
    · exact Steady.reply .of_same _ _ _ _
    · exact steady_reply _ _ _ _ s
  · exact steady_reply _ _ _ _ s

theorem steady_setOutputPeriod (l : Link) (d : Payload) (s : State) : Steady s (serveSetOutputPeriod l d s) := by
  unfold serveSetOutputPeriod
  split
  · exact Steady.reply .of_same _ _ _ _
  · exact steady_reply _ _ _ _ s

theorem steady_takeFlag (l : Link) (r : Request) (q : FlagRequest) (d : Payload) (s : State) :
    Steady s (takeFlag l r q d s) := by
  unfold takeFlag
  split
  · exact steady_performFlag _ s _
  · unfold queueFlag
    split
    · exact .of_same rfl rfl rfl
    · exact steady_reply _ _ _ _ s

theorem steady_clearFlags (l : Link) (d : Payload) (s : State) : Steady s (serveClearFlags l d s) := by
  unfold serveClearFlags
  split
  · split
    · exact steady_reply _ _ _ _ s
    · exact steady_takeFlag _ _ _ _ s
  · exact steady_reply _ _ _ _ s

theorem steady_stampRead (l : Link) (d : Payload) (s : State) : Steady s (serveStampRead l d s) := by
  unfold serveStampRead
  split
  · exact (steady_readStamp _ s).reply _ _ _ _
  · exact steady_reply _ _ _ _ s

theorem steady_keyOff (l : Link) (d : Payload) (s : State) : Steady s (serveKeyOff l d s) :=
  Steady.reply .of_same _ _ _ _

theorem steady_acceptRestart (l : Link) (n : Option NodesRecord) (s : State) : Steady s (acceptRestart l n s) := by
  have placed : Steady s (placeNodes n s) := by
    unfold placeNodes
    split
    · exact .of_same rfl rfl rfl
    · exact .refl s
  exact (placed.trans .of_same).reply _ _ _ _

theorem steady_restart (l : Link) (d : Payload) (s : State) : Steady s (serveRestart l d s) := by
  unfold serveRestart
  split
  · split
    · exact steady_reply _ _ _ _ s
    · exact steady_acceptRestart _ _ s
  · exact steady_acceptRestart _ _ s
  · exact steady_reply _ _ _ _ s

/-- A SET_GEOMETRY leaves the table alone, but for its place in the edit queue. -/
theorem steady_setGeometry (l : Link) (d : Payload) (s : State) : Steady s (serveSetGeometry l d s) := by
  unfold serveSetGeometry
  split
  · split
    · exact steady_reply _ _ _ _ s
    · unfold takeEdit
      split
      · exact (steady_applyGeometry _ s).trans (steady_setPort _ _ _)
      · split
        · exact ⟨fun h => h.withQueue _, rfl, rfl⟩
        · exact steady_reply _ _ _ _ s
  · exact steady_reply _ _ _ _ s

end Sys2Proof.Proofs
end

section
/-! SUPPORT. Every step keeps the sizes of the numbered tables and the consistency of the stamp slots (O52): the commands
that leave the table alone, the edits, and the resets with the image load. -/

namespace Sys2Proof.Proofs

open Sys2Proof Sys2Proof.Machine Sys2Proof.Laws

/-! ## Commands that leave the zones and the plane alone -/

/-- The commands that may apply an edit of the zones or the plane: ZONE_EDIT, SET_GRADE, and the completion of a solve. -/
def editsTable : Instr → Bool
  | .zoneEditWrite _ => true
  | .zoneEditDelete _ => true
  | .zoneEditSuspend _ => true
  | .zoneEditResume _ => true
  | .setGradeSet _ => true
  | .setGradeClear _ => true
  | .solveCompletion _ => true
  | _ => false

/-- The command answers a state that differs steadily. -/
def AnswersSteady (c : Instr) (s : State) : Prop := ∃ t, exec c s = .next t ∧ Steady s t

theorem answersSteady_loadRecordExamined (s : State) : AnswersSteady .loadRecordExamined s := by
  have examined : ∀ r, Steady s (examineRecord r s) := by
    intro r
    have raised : Steady s (if failsCheck s.store.image r then raiseStoreFault .load r s else s) := by
      split
      · exact steady_raiseStoreFault _ _ s
      · exact .refl s
    unfold examineRecord
    dsimp only
    split
    · exact raised.trans (.of_same rfl rfl rfl)
    · exact raised.trans (.of_same rfl rfl rfl)
  simp only [AnswersSteady, exec, execLoadRecordExamined]
  split
  · exact ⟨_, rfl, examined _⟩
  · exact ⟨s, rfl, .refl s⟩

theorem answersSteady_saveRecordReadback (mismatch : Bool) (s : State) :
    AnswersSteady (.saveRecordReadback mismatch) s := by
  have written : ∀ v r, Steady s (writeBack mismatch v r s) := by
    intro v r
    have stored : Steady s { s with store := { s.store with
        image := putRecord (!mismatch) r s.store.image, save := some (saveStep mismatch v) } } := .of_same
    unfold writeBack spoilRecord
    dsimp only
    split
    · refine stored.trans (Steady.trans ?_ (steady_raiseStoreFault _ _ _))
      split
      · exact .refl _
      · exact .of_same rfl rfl rfl
    · exact stored
  simp only [AnswersSteady, exec, execSaveRecordReadback]
  split
  · split
    · exact ⟨_, rfl, written _ _⟩
    · exact ⟨s, rfl, .refl s⟩
  · exact ⟨s, rfl, .refl s⟩

/-- The completion of a save that is no restart save. -/
theorem answersSteady_saveCompletion {s : State} (h : resets .saveCompletion s = false) :
    AnswersSteady .saveCompletion s := by
  have told : ∀ v, Steady s (sendSaveDone v s) := by
    intro v
    unfold sendSaveDone
    split
    · exact steady_sendNotice _ _ s
    · exact .refl s
  simp only [AnswersSteady, exec, execSaveCompletion]
  split
  · rename_i v hv
    have plain : v.isRestart = false := by simpa [resets, hv] using h
    split
    · refine ⟨_, rfl, (told v).trans ?_⟩
      unfold afterSave
      rw [if_neg (by simp [plain])]
      split
      · exact .of_same rfl rfl rfl
      · exact .of_same rfl rfl rfl
    · exact ⟨s, rfl, .refl s⟩
  · exact ⟨s, rfl, .refl s⟩

theorem steady_takeSampleFrame (s : State) : Steady s (takeSampleFrame .ml s) := by
  have dropped : Steady s (dropHead .ml s) := steady_setPort _ _ s
  unfold takeSampleFrame
  split
  · exact .refl s
  · split
    · split
      · exact dropped.trans (steady_intakeSample _ _)
      · exact dropped
    · exact .refl s

theorem answersSteady_sample (l : Link) (s : State) : AnswersSteady (.sample l) s := by
  cases l with
  | ml => exact ⟨_, rfl, steady_takeSampleFrame s⟩
  | cl => exact ⟨_, rfl, steady_takeRequest (fun _ => .refl) s⟩
  | sl => exact ⟨_, rfl, steady_takeRequest (fun _ => .refl) s⟩

theorem answersSteady_durationExpiry (s : State) : AnswersSteady .durationExpiry s := by
  have expired : ∀ t, Steady t (expireActive t) := by
    intro t
    unfold expireActive
    split
    · exact steady_ladderEvent _ _ t
    · exact .refl t
  simp only [AnswersSteady, exec, execDurationExpiry]
  split
  · exact ⟨s, rfl, .refl s⟩
  · exact ⟨_, rfl, (steady_elapse _ s).trans (expired _)⟩

theorem answersSteady_staleTimerExpiry (s : State) : AnswersSteady .staleTimerExpiry s := by
  simp only [AnswersSteady, exec, execStaleTimerExpiry]
  split
  · exact ⟨s, rfl, .refl s⟩
  · split
    · exact ⟨_, rfl, (steady_elapse _ s).trans (steady_sampleLoss _ _)⟩
    · exact ⟨s, rfl, .refl s⟩

theorem answersSteady_idleTimerExpiry (s : State) : AnswersSteady .idleTimerExpiry s := by
  simp only [AnswersSteady, exec, execIdleTimerExpiry]
  split
  · exact ⟨s, rfl, .refl s⟩
  · exact ⟨_, rfl, (steady_elapse _ s).trans (steady_ladderEvent _ _ _)⟩

theorem answersSteady_shutdownTimerExpiry (s : State) : AnswersSteady .shutdownTimerExpiry s := by
  simp only [AnswersSteady, exec, execShutdownTimerExpiry]
  split
  · exact ⟨s, rfl, .refl s⟩
  · exact ⟨_, rfl, (steady_elapse _ s).trans (steady_retarget _ _)⟩

theorem answersSteady_waitLimitExpiry (src : Source) (s : State) : AnswersSteady (.waitLimitExpiry src) s := by
  simp only [AnswersSteady, exec, execWaitLimitExpiry]
  split
  · exact ⟨s, rfl, .refl s⟩
  · exact ⟨_, rfl, .of_same rfl rfl rfl⟩

theorem answersSteady_outputPeriodExpiry (s : State) : AnswersSteady .outputPeriodExpiry s := by
  simp only [AnswersSteady, exec, execOutputPeriodExpiry]
  split
  · exact ⟨s, rfl, .refl s⟩
  · exact ⟨_, rfl, (steady_elapse _ s).trans (steady_transferOutput _)⟩

theorem answersSteady_cabViewExpiry (s : State) : AnswersSteady .cabViewExpiry s := by
  simp only [AnswersSteady, exec, execCabViewExpiry]
  split
  · exact ⟨s, rfl, .refl s⟩
  · exact ⟨_, rfl, (steady_elapse _ s).trans (steady_sendCabView _)⟩

theorem answersSteady_saveTimerExpiry (s : State) : AnswersSteady .saveTimerExpiry s := by
  simp only [AnswersSteady, exec, execSaveTimerExpiry]
  split
  · exact ⟨s, rfl, .refl s⟩
  · exact ⟨_, rfl, .of_same⟩

theorem answersSteady_stagePose (s : State) : AnswersSteady .stagePose s := by
  simp only [AnswersSteady, exec, execStagePose]
  split
  · exact ⟨_, rfl, .of_same rfl rfl rfl⟩
  · exact ⟨s, rfl, .refl s⟩

theorem answersSteady_stageEvaluate (s : State) : AnswersSteady .stageEvaluate s := by
  simp only [AnswersSteady, exec, execStageEvaluate]
  split
  · exact ⟨_, rfl, steady_stageEvaluate _ _ s⟩
  · exact ⟨s, rfl, .refl s⟩

theorem answersSteady_stageAids (s : State) : AnswersSteady .stageAids s := by
  simp only [AnswersSteady, exec, execStageAids]
  split
  · exact ⟨_, rfl, .of_same rfl rfl rfl⟩
  · exact ⟨s, rfl, .refl s⟩

theorem answersSteady_frameReceived (l : Link) (f : RxFrame) (s : State) : AnswersSteady (.frameReceived l f) s := by
  simp only [AnswersSteady, exec, execFrameReceived]
  split
  · exact ⟨_, rfl, steady_setPort _ _ s⟩
  · exact ⟨s, rfl, .refl s⟩

theorem answersSteady_frameTransmitted (l : Link) (s : State) : AnswersSteady (.frameTransmitted l) s := by
  simp only [AnswersSteady, exec, execFrameTransmitted]
  split
  · exact ⟨_, rfl, steady_setPort _ _ s⟩
  · exact ⟨s, rfl, .refl s⟩

/-- A link's restart forgets the answers owed to queued edits, not the edits (R51). -/
theorem answersSteady_busOff (l : Link) (s : State) : AnswersSteady (.busOff l) s := by
  have forgot : ∀ t, Steady t (forgetAnswers l t) := fun _ => ⟨fun h => h.of_same rfl rfl, rfl, rfl⟩
  simp only [AnswersSteady, exec, execBusOff]
  split
  · exact ⟨_, rfl, (steady_setPort _ _ s).trans (forgot _)⟩
  · exact ⟨s, rfl, .refl s⟩

/-- Every command that neither resets the part nor may edit the table is steady. -/
theorem exec_steady (s : State) : (c : Instr) → resets c s = false → editsTable c = false → AnswersSteady c s
  | .powerOnReset _, h, _ | .loadCompletion, h, _ => nomatch h
  | .zoneEditWrite _, _, h | .zoneEditDelete _, _, h | .zoneEditSuspend _, _, h | .zoneEditResume _, _, h
  | .setGradeSet _, _, h | .setGradeClear _, _, h | .solveCompletion _, _, h => nomatch h
  | .loadRecordExamined, _, _ => answersSteady_loadRecordExamined s
  | .frameReceived l f, _, _ => answersSteady_frameReceived l f s
  | .frameTransmitted l, _, _ => answersSteady_frameTransmitted l s
  | .busOff l, _, _ => answersSteady_busOff l s
  | .busOffRecovery _, _, _ => ⟨_, rfl, steady_setPort _ _ s⟩
  | .unknownRequest _, _, _ => ⟨_, rfl, steady_takeRequest (fun _ => .refl) s⟩
  | .sample l, _, _ => answersSteady_sample l s
  | .stagePose, _, _ => answersSteady_stagePose s
  | .stageEvaluate, _, _ => answersSteady_stageEvaluate s
  | .stageAids, _, _ => answersSteady_stageAids s
  | .staleTimerExpiry, _, _ => answersSteady_staleTimerExpiry s
  | .idleTimerExpiry, _, _ => answersSteady_idleTimerExpiry s
  | .shutdownTimerExpiry, _, _ => answersSteady_shutdownTimerExpiry s
  | .durationExpiry, _, _ => answersSteady_durationExpiry s
  | .waitLimitExpiry src, _, _ => answersSteady_waitLimitExpiry src s
  | .outputPeriodExpiry, _, _ => answersSteady_outputPeriodExpiry s
  | .cabViewExpiry, _, _ => answersSteady_cabViewExpiry s
  | .saveTimerExpiry, _, _ => answersSteady_saveTimerExpiry s
  | .saveRecordReadback mismatch, _, _ => answersSteady_saveRecordReadback mismatch s
  | .saveCompletion, h, _ => answersSteady_saveCompletion h
  | .keyOff l, _, _ => ⟨_, rfl, steady_takeRequest (steady_keyOff l) s⟩
  | .regenDemandPlace l, _, _ | .regenDemandWithdraw l, _, _ => ⟨_, rfl, steady_takeRequest (steady_regen l) s⟩
  | .statusQuery l, _, _ =>
    ⟨_, rfl, steady_takeRequest (fun _ t => (steady_setPort _ _ t : Steady t (clearOverrun l t)).reply _ _ _ _) s⟩
  | .identify l, _, _ =>
    ⟨_, rfl, steady_takeRequest (fun _ t => (steady_setPort _ _ t : Steady t (clearOverrun l t)).reply _ _ _ _) s⟩
  | .setMode l, _, _ | .setModeOff l, _, _ => ⟨_, rfl, steady_takeRequest (steady_setMode l) s⟩
  | .touchIdleOn l, _, _ | .touchIdleOff l, _, _ => ⟨_, rfl, steady_takeRequest (steady_touchIdle l) s⟩
  | .ackItem l, _, _ => ⟨_, rfl, steady_takeRequest (steady_ack l) s⟩
  | .ringRead _, _, _ => ⟨_, rfl, steady_takeRequest (fun _ t => steady_reply _ _ _ _ t) s⟩
  | .ringAdvance l, _, _ => ⟨_, rfl, steady_takeRequest (steady_ringAdvance l) s⟩
  | .ringClearLost l, _, _ => ⟨_, rfl, steady_takeRequest (steady_ringClearLost l) s⟩
  | .stampRead l, _, _ => ⟨_, rfl, steady_takeRequest (steady_stampRead l) s⟩
  | .setGeometry l, _, _ => ⟨_, rfl, steady_takeRequest (steady_setGeometry l) s⟩
  | .setSolver l, _, _ => ⟨_, rfl, steady_takeRequest (steady_setSolver l) s⟩
  | .readFlags _, _, _ => ⟨_, rfl, steady_takeRequest (fun d t => steady_takeFlag _ _ _ d t) s⟩
  | .clearFlags l, _, _ => ⟨_, rfl, steady_takeRequest (steady_clearFlags l) s⟩
  | .setLadder l, _, _ => ⟨_, rfl, steady_takeRequest (steady_setLadder l) s⟩
  | .testDemandPlace l, _, _ | .testDemandWithdraw l, _, _ => ⟨_, rfl, steady_takeRequest (steady_test l) s⟩
  | .setEconomy l, _, _ => ⟨_, rfl, steady_takeRequest (steady_setEconomy l) s⟩
  | .setAidsThresholds l, _, _ | .setAidsTable l, _, _ => ⟨_, rfl, steady_takeRequest (steady_setAids l) s⟩
  | .itemDefine l, _, _ => ⟨_, rfl, steady_takeRequest (steady_itemDefine l) s⟩
  | .serviceDone l, _, _ => ⟨_, rfl, steady_takeRequest (steady_serviceDone l) s⟩
  | .itemRetire l, _, _ => ⟨_, rfl, steady_takeRequest (steady_itemRetire l) s⟩
  | .accumRead _, _, _ => ⟨_, rfl, steady_takeRequest (fun _ t => steady_reply _ _ _ _ t) s⟩
  | .accumSet l, _, _ | .accumSetRatedFuel l, _, _ => ⟨_, rfl, steady_takeRequest (steady_accumSet l) s⟩
  | .setOutputPeriod l, _, _ => ⟨_, rfl, steady_takeRequest (steady_setOutputPeriod l) s⟩
  | .restart l, _, _ => ⟨_, rfl, steady_takeRequest (steady_restart l) s⟩

/-! ## Edits -/

theorem sound_acceptZone (n : Nat) (act : ZoneAction) (z : Zone) {s : State} (h : Sound s) :
    Sound (acceptZone n act z s) := by
  have marked : Sound (if clearsMarks act then clearEntryMarks n (putZone n z s) else putZone n z s) := by
    split <;> exact h.of_same (by simp [sizes, clearEntryMarks, putZone]) rfl
  refine (steady_editRewrite _).sound ?_
  split
  · exact (steady_markDirty _ _).sound marked
  · exact marked

theorem sound_acceptPlane (p : GradePlane) {s : State} (h : Sound s) : Sound (acceptPlane p s) := by
  have marked : Sound (clearEntryMarks Config.zoneCount (putPlane p s)) :=
    h.of_same (by simp [sizes, clearEntryMarks, putPlane]) rfl
  refine (steady_editRewrite _).sound ?_
  split
  · exact (steady_markDirty _ _).sound marked
  · exact marked

theorem sound_performEdit {s : State} (h : Sound s) (q : QueuedEdit) : Sound (performEdit s q) := by
  refine (steady_setPort _ _ _).sound ?_
  obtain k | ⟨n, act, z, k⟩ | ⟨p, k⟩ | ⟨g, k⟩ := applyEdit_cases q.link q.edit s <;> rw [k]
  · exact h
  · exact sound_acceptZone n act z h
  · exact sound_acceptPlane p h
  · exact (steady_applyGeometry g s).sound h

theorem sound_takeEdit (l : Link) (e : Edit) {s : State} (h : Sound s) : Sound (takeEdit l e s) := by
  unfold takeEdit
  split
  · exact sound_performEdit h _
  · split
    · exact h.withQueue _
    · exact (steady_reply _ _ _ _ s).sound h

theorem sound_zoneEdit (l : Link) (d : Payload) {s : State} (h : Sound s) : Sound (serveZoneEdit l d s) := by
  unfold serveZoneEdit
  split
  · exact sound_takeEdit _ _ h
  · exact (steady_reply _ _ _ _ s).sound h

theorem sound_setGrade (l : Link) (d : Payload) {s : State} (h : Sound s) : Sound (serveSetGrade l d s) := by
  unfold serveSetGrade
  split
  · split
    · exact sound_takeEdit _ _ h
    · exact (steady_reply _ _ _ _ s).sound h
  · exact (steady_reply _ _ _ _ s).sound h

theorem sound_takeRequest {me : Instr} {l : Link} {serve : Payload → State → State}
    (hs : ∀ d t, Sound t → Sound (serve d t)) {s : State} (h : Sound s) : Sound (takeRequest me l serve s) := by
  have taken : Sound (takeHead l s) := (steady_setPort _ _ s).sound h
  obtain k | ⟨b, k⟩ | ⟨f, -, k⟩ := takeRequest_cases me l serve s <;> rw [k]
  · exact h
  · exact (steady_setPort _ _ _).sound taken
  · exact hs _ _ taken

theorem sound_editStep (x : EditStep) {s : State} (h : Sound s) : Sound (editStep s x) := by
  cases x with
  | apply =>
    rw [editStep_apply]
    unfold applyHead
    split
    · exact sound_performEdit (h.withQueue _) _
    · exact h
  | take l =>
    rw [editStep_take]
    obtain k | ⟨f, serve, -, k, ⟨-, rfl⟩ | ⟨-, rfl⟩ | ⟨-, rfl⟩⟩ := takeEditFrame_cases l s <;> rw [k]
    · exact h
    · exact sound_takeRequest (fun d _ => sound_zoneEdit l d) h
    · exact sound_takeRequest (fun d _ => sound_setGrade l d) h
    · exact (steady_takeRequest (steady_setGeometry l) s).sound h

/-- A fold keeps what each of its steps keeps. -/
theorem foldl_keeps {α : Type} {P : State → Prop} {f : State → α → State} (hf : ∀ s a, P s → P (f s a)) (xs : List α)
    {s : State} (h : P s) : P (xs.foldl f s) := by
  induction xs generalizing s with
  | nil => exact h
  | cons x xs ih => exact ih (hf s x h)

theorem sound_completeSolve (o : CompletionOrder) (l : Latch) (p : PoseResult) (e : EvalResult) (a : AidsResult)
    {s : State} (h : Sound s) : Sound (completeSolve o l p e a s) := by
  have served : Sound (serveFlags (handOffs o l p e a s)) :=
    ((steady_handOffs o l p e a s).trans (steady_serveFlags _)).sound h
  have stepped : Sound (o.edits.foldl editStep (serveFlags (handOffs o l p e a s))) :=
    foldl_keeps (P := Sound) (fun _ x k => sound_editStep x k) _ served
  have applied : Sound (applyEdits o.edits (serveFlags (handOffs o l p e a s))) :=
    foldl_keeps (P := Sound) (fun _ q k => sound_performEdit k q) _ (stepped.withQueue [])
  exact (steady_nextSolve _).sound applied

/-! ## Resets and the image load -/

/-- A reset part over an image whose numbered records are all there. -/
theorem sound_loadingState {image : Image} (pending : List Instr) (hz : image.zones.length = 32)
    (hi : image.items.length = 24) : Sound (loadingState image pending) := by
  refine ⟨?_, fun _ => rfl, fun _ => rfl, fun _ => rfl, fun _ => rfl, fun _ => rfl, fun _ => rfl, fun _ => rfl⟩
  exact ⟨rfl, rfl, rfl, rfl, rfl, hz, hi⟩

/-- A reset cuts off the writing of one record at most, which takes the place of the old (R188). -/
theorem sound_enterLoading (m : WriteMoment) {s : State} (h : Sound s) : Sound (enterLoading m s) := by
  obtain ⟨⟨-, -, -, -, -, zones, items⟩, -⟩ := h
  refine sound_loadingState _ ?_ ?_ <;>
    · unfold abandonedImage
      split <;> simp [zones, items]

/-- The table takes one zone for each zone record of the image (step 1 of R186). -/
theorem sound_loadRecords {s : State} (h : Sound s) : Sound (loadRecords s) := by
  obtain ⟨⟨-, rest⟩, stamps⟩ := h
  obtain ⟨-, -, -, -, imageZones, -⟩ := id rest
  exact ⟨⟨by simp [loadRecords, imageZones], rest⟩, stamps⟩

/-- The schedule takes one item for each item record of the image (step 2 of R186). -/
theorem sound_loadSchedule {s : State} (h : Sound s) : Sound (loadSchedule s) := by
  obtain ⟨⟨zones, inside, clear, -, -, imageZones, imageItems⟩, stamps⟩ := h
  have formed : ∀ w, Sound { s with items := s.store.image.items.map (loadItem s.duty), ring := resetRing w } := fun w =>
    ⟨⟨zones, inside, clear, by simp [imageItems], rfl, imageZones, imageItems⟩, stamps⟩
  have requested : ∀ u b, Steady u { u with ladder := { u.ladder with service := b } } := fun _ _ => .of_same rfl rfl rfl
  exact ((Steady.foldl steady_announceFault (List.range Config.itemCount) _).trans (requested _ _)).sound (formed _)

/-- The evaluator takes its reset marks (step 3 of R186). -/
theorem sound_loadEvaluator {s : State} (h : Sound s) : Sound (loadEvaluator s) := by
  obtain ⟨⟨zones, -, -, rest⟩, stamps⟩ := h
  exact ⟨⟨zones, rfl, rfl, rest⟩, stamps⟩

/-- The part enters WAITING with the ladder's and the output set's values (steps 4 and 5 of R186). -/
theorem steady_enterWaiting (s : State) : Steady s (enterWaiting (loadOutput (loadLadder s))) := .of_same rfl rfl rfl

theorem sound_completeLoad {s : State} (h : Sound s) : Sound (completeLoad s) :=
  (steady_enterWaiting _).sound (sound_loadEvaluator (sound_loadSchedule (sound_loadRecords h)))

/-! ## Every command -/

/-- The commands that reset the part or complete its load. -/
theorem resets_cases {c : Instr} {s : State} (h : resets c s = true) :
    (∃ m, c = .powerOnReset m) ∨ c = .loadCompletion ∨ c = .saveCompletion := by
  cases c <;> simp_all [resets]

/-- They keep the invariant. -/
theorem exec_sound_of_resets {c : Instr} {s t : State} (h : Sound s) (hc : resets c s = true)
    (ht : exec c s = .next t) : Sound t := by
  obtain ⟨m, rfl⟩ | rfl | rfl := resets_cases hc
  · cases ht
    exact sound_enterLoading m h
  · simp only [exec, execLoadCompletion] at ht
    split at ht <;> cases ht
    · exact sound_completeLoad h
    · exact h
  · have told : ∀ v, Sound (sendSaveDone v s) := by
      intro v
      unfold sendSaveDone
      split
      · exact (steady_sendNotice _ _ s).sound h
      · exact h
    simp only [exec, execSaveCompletion] at ht
    split at ht
    · rename_i v hv
      have restart : v.isRestart = true := by simpa [resets, hv] using hc
      split at ht <;> cases ht
      · rw [afterSave, if_pos restart]
        exact sound_enterLoading _ (told v)
      · exact h
    · cases ht
      exact h

/-- A command that may edit the table hands a ZONE_EDIT or a SET_GRADE to it, which on SL is a service edit whatever it
names, or completes a solve. -/
theorem editsTable_cases {c : Instr} (h : editsTable c = true) :
    (∃ l, ∃ serve ∈ [serveZoneEdit, serveSetGrade], (∀ s, exec c s = .next (takeRequest c l (serve l) s)) ∧
      (l = .sl → ∀ kind s, serviceEdit kind c s)) ∨ ∃ o, c = .solveCompletion o := by
  cases c with
  | zoneEditWrite l => exact .inl ⟨l, serveZoneEdit, by simp, fun _ => rfl, fun hl _ _ => by subst hl; trivial⟩
  | zoneEditDelete l => exact .inl ⟨l, serveZoneEdit, by simp, fun _ => rfl, fun hl _ _ => by subst hl; trivial⟩
  | zoneEditSuspend l => exact .inl ⟨l, serveZoneEdit, by simp, fun _ => rfl, fun hl _ _ => by subst hl; trivial⟩
  | zoneEditResume l => exact .inl ⟨l, serveZoneEdit, by simp, fun _ => rfl, fun hl _ _ => by subst hl; trivial⟩
  | setGradeSet l => exact .inl ⟨l, serveSetGrade, by simp, fun _ => rfl, fun hl _ _ => by subst hl; trivial⟩
  | setGradeClear l => exact .inl ⟨l, serveSetGrade, by simp, fun _ => rfl, fun hl _ _ => by subst hl; trivial⟩
  | solveCompletion o => exact .inr ⟨o, rfl⟩
  | _ => exact nomatch h

/-- They keep the invariant. -/
theorem exec_sound_of_editsTable {c : Instr} {s t : State} (h : Sound s) (hc : editsTable c = true)
    (ht : exec c s = .next t) : Sound t := by
  obtain ⟨l, serve, hs, he, -⟩ | ⟨o, rfl⟩ := editsTable_cases hc
  · rw [he] at ht
    cases ht
    refine sound_takeRequest (fun d t k => ?_) h
    obtain rfl | rfl : serve = serveZoneEdit ∨ serve = serveSetGrade := by simpa using hs
    · exact sound_zoneEdit l d k
    · exact sound_setGrade l d k
  · simp only [exec, execSolveCompletion] at ht
    split at ht <;> cases ht
    · exact sound_completeSolve o _ _ _ _ h
    · exact h

/-- Every command keeps the invariant. -/
theorem exec_sound {c : Instr} {s t : State} (h : Sound s) (ht : exec c s = .next t) : Sound t := by
  cases hr : resets c s with
  | true => exact exec_sound_of_resets h hr ht
  | false =>
    cases he : editsTable c with
    | true => exact exec_sound_of_editsTable h he ht
    | false =>
      obtain ⟨u, hu, k⟩ := exec_steady s c hr he
      obtain rfl : u = t := by simpa [hu] using ht
      exact k.sound h

/-- Settles O52: a step is a command or an idle millisecond, and each keeps `Sound`. -/
theorem stepKeepsShapesAndStamps : Obligations.StepKeepsShapesAndStamps := by
  intro s t shape stamps hs
  have h : Sound s := ⟨shape, stamps⟩
  unfold step at hs
  split at hs
  · cases hs
    exact (steady_elapse 1 s).sound h
  · rename_i rest _
    have front : Sound { s with pending := rest } := h.of_same rfl rfl
    exact exec_sound front hs

end Sys2Proof.Proofs
end

section
/-! SUPPORT. ZONE_EDIT applied at the table (O22). -/

namespace Sys2Proof.Proofs

open Sys2Proof Sys2Proof.Machine Sys2Proof.Laws

/-! ## The entry an action makes (R46 to R48) -/

theorem zoneAfter_write (l : Link) (b : ZoneBody) (z : Zone) :
    zoneAfter l (.write b) z = (.ok, some (.active (originOf l) b)) := by cases z <;> rfl

theorem zoneAfter_delete (l : Link) (z : Zone) :
    zoneAfter l .delete z = if z = .empty then (.notFound, none) else (.ok, some .empty) := by cases z <;> rfl

theorem zoneAfter_suspend (l : Link) {z : Zone} (h : ∀ o b, z ≠ .active o b) :
    zoneAfter l .suspend z = (.wrongState, none) := by
  cases z with
  | active o b => exact absurd rfl (h o b)
  | _ => rfl

theorem zoneAfter_resume (l : Link) {z : Zone} (h : ∀ o b, z ≠ .suspended o b) :
    zoneAfter l .resume z = (.wrongState, none) := by
  cases z with
  | suspended o b => exact absurd rfl (h o b)
  | _ => rfl

/-- An action that is OK makes an entry, and one that is not makes none. -/
theorem zoneAfter_cases (l : Link) (act : ZoneAction) (z : Zone) :
    (∃ r, r ≠ .ok ∧ zoneAfter l act z = (r, none)) ∨ ∃ w, zoneAfter l act z = (.ok, some w) := by
  cases act with
  | write b => exact .inr ⟨_, zoneAfter_write l b z⟩
  | delete =>
    rw [zoneAfter_delete]
    split
    · exact .inl ⟨.notFound, by decide, rfl⟩
    · exact .inr ⟨_, rfl⟩
  | suspend =>
    cases z with
    | active o b => exact .inr ⟨_, rfl⟩
    | _ => exact .inl ⟨.wrongState, by decide, rfl⟩
  | resume =>
    cases z with
    | suspended o b => exact .inr ⟨_, rfl⟩
    | _ => exact .inl ⟨.wrongState, by decide, rfl⟩

/-- A ZONE_EDIT at the table: refused, or without effect, or the entry it makes is accepted. -/
theorem applyZone_cases (l : Link) (n : Nat) (act : ZoneAction) (s : State) :
    (l ≠ .sl ∧ isSite (zoneAt s n) = true ∧ applyZone l n act s = (.isProtected, s)) ∨
    ((l = .sl ∨ isSite (zoneAt s n) = false) ∧
      ((∃ r, r ≠ .ok ∧ zoneAfter l act (zoneAt s n) = (r, none) ∧ applyZone l n act s = (r, s)) ∨
        ∃ w, zoneAfter l act (zoneAt s n) = (.ok, some w) ∧ applyZone l n act s = (.ok, acceptZone n act w s))) := by
  unfold applyZone
  split
  · rename_i h
    exact .inl ⟨h.1, h.2, rfl⟩
  · rename_i h
    refine .inr ⟨by simpa [or_iff_not_imp_left] using h, ?_⟩
    obtain ⟨r, hr, k⟩ | ⟨w, k⟩ := zoneAfter_cases l act (zoneAt s n)
    · exact .inl ⟨r, hr, k, by rw [k]⟩
    · exact .inr ⟨w, k, by rw [k]⟩

/-! ## An accepted entry -/

/-- The evaluator's marks after an accepted zone edit: those of the entry cleared, but not by RESUME (R48). -/
def marksCleared (n : Nat) (act : ZoneAction) (e : Evaluator) : Evaluator :=
  if clearsMarks act then { e with inside := e.inside.set n false, clear := e.clear.set n false } else e

/-- An accepted zone edit: the table and the marks as changed, the store with its dirty mark, then the rewrite. -/
theorem acceptZone_eq (n : Nat) (act : ZoneAction) (z : Zone) (s : State) :
    acceptZone n act z s = editRewrite
      { putZone n z s with
        evaluator := marksCleared n act s.evaluator
        store := if isSite (zoneAt s n) || isSite z then (markDirty (.zone n) (putZone n z s)).store else s.store } := by
  have marked : (if clearsMarks act then clearEntryMarks n (putZone n z s) else putZone n z s) =
      { putZone n z s with evaluator := marksCleared n act s.evaluator } := by
    unfold marksCleared
    split <;> rfl
  unfold acceptZone
  dsimp only
  rw [marked, markDirty_withEvaluator]
  split
  · rw [markDirty_eq]
  · rfl

@[simp] theorem acceptZone_table (n : Nat) (act : ZoneAction) (z : Zone) (s : State) :
    (acceptZone n act z s).table = { s.table with zones := s.table.zones.set n z } := by
  rw [acceptZone_eq, editRewrite_table]
  rfl

/-- An accepted edit writes its own entry alone. -/
theorem zoneAt_acceptZone {n : Nat} (act : ZoneAction) (z : Zone) {s : State} (h : n < s.table.zones.length) :
    zoneAt (acceptZone n act z s) n = z := by
  simp [zoneAt, h]

theorem zoneAt_acceptZone_ne {n k : Nat} (act : ZoneAction) (z : Zone) (s : State) (h : k ≠ n) :
    zoneAt (acceptZone n act z s) k = zoneAt s k := by
  simp [zoneAt, List.getD_eq_getElem?_getD, List.getElem?_set_ne h.symm]

/-- The marks that an accepted edit of entry `n` leaves: the entry's own clear, but after a RESUME, which like every edit
leaves the other entries' marks. -/
theorem marksCleared_spec {n : Nat} (act : ZoneAction) {e : Evaluator} (hi : n < e.inside.length)
    (hc : n < e.clear.length) :
    (∀ k, k ≠ n → (marksCleared n act e).inside.getD k false = e.inside.getD k false ∧
      (marksCleared n act e).clear.getD k false = e.clear.getD k false) ∧
    (act ≠ .resume → (marksCleared n act e).inside.getD n true = false ∧
      (marksCleared n act e).clear.getD n true = false) ∧
    (act = .resume → marksCleared n act e = e) := by
  obtain ⟨inside, insideElse⟩ := getD_set_false hi
  obtain ⟨clear, clearElse⟩ := getD_set_false hc
  cases act with
  | resume => exact ⟨fun _ _ => ⟨rfl, rfl⟩, fun h => absurd rfl h, fun _ => rfl⟩
  | _ => exact ⟨fun k hk => ⟨insideElse k hk, clearElse k hk⟩, fun _ => ⟨inside, clear⟩, nofun⟩

/-- What an accepted zone edit changes beside its entry: the entry's marks, the store, and the rewrite of R77. -/
theorem acceptZone_spec {n : Nat} (act : ZoneAction) (z : Zone) {s : State} (hn : n < 32)
    (hz : s.table.zones.length = 32) (hi : s.evaluator.inside.length = 33) (hc : s.evaluator.clear.length = 33) :
    let t := acceptZone n act z s
    (∀ k, k ≠ n → zoneAt t k = zoneAt s k ∧ t.evaluator.inside.getD k false = s.evaluator.inside.getD k false ∧
      t.evaluator.clear.getD k false = s.evaluator.clear.getD k false) ∧
      (act ≠ .resume → t.evaluator.inside.getD n true = false ∧ t.evaluator.clear.getD n true = false) ∧
      (act = .resume → t.evaluator.inside = s.evaluator.inside ∧ t.evaluator.clear = s.evaluator.clear) ∧
      t.store = (if isSite (zoneAt s n) || isSite (zoneAt t n) then (markDirty (.zone n) { s with table := t.table }).store
        else s.store) ∧
      RewrittenIfUnusable s t (geometryFields s.solver.geometry) ∧
      t = { s with
            table := { s.table with zones := t.table.zones }, evaluator := t.evaluator, output := t.output
            store := t.store } := by
  obtain ⟨others, own, resumed⟩ := marksCleared_spec act (e := s.evaluator) (n := n) (by omega) (by omega)
  have inside : (acceptZone n act z s).evaluator.inside = (marksCleared n act s.evaluator).inside := by
    rw [acceptZone_eq, editRewrite_eq]
  have clear : (acceptZone n act z s).evaluator.clear = (marksCleared n act s.evaluator).clear := by
    rw [acceptZone_eq, editRewrite_eq]
  dsimp only
  rw [inside, clear, zoneAt_acceptZone act z (by omega), acceptZone_table]
  refine ⟨fun k hk => ⟨zoneAt_acceptZone_ne act z s hk, others k hk⟩, own, fun h => by simp [resumed h], ?_, ?_, ?_⟩
  · rw [acceptZone_eq, editRewrite_store]
    rfl
  · rw [acceptZone_eq]
    refine rewritten_editRewrite rfl ?_ rfl
    unfold marksCleared
    split <;> rfl
  · rw [acceptZone_eq]
    conv_lhs => rw [editRewrite_eq]
    rw [editRewrite_store]
    conv_rhs => rw [editRewrite_eq]
    rfl

/-- Settles O22: the result and the entry by `zoneAfter`, the rest of an accepted edit by `acceptZone_spec`. -/
theorem zoneEditsFollowOriginAndState : Obligations.ZoneEditsFollowOriginAndState := by
  intro l n act s hn hz hi hc
  obtain ⟨hl, hs, h⟩ | ⟨may, k⟩ := applyZone_cases l n act s
  · rw [h]
    have unbarred : ¬(l = .sl ∨ isSite (zoneAt s n) = false) := by simp [hl, hs]
    exact ⟨fun _ => rfl, fun may => absurd may unbarred, fun _ => rfl, nofun⟩
  · have barred : ¬(l ≠ .sl ∧ isSite (zoneAt s n) = true) := fun no => may.elim no.1 (by simp [no.2])
    have applied : (applyZone l n act s).1 = (zoneAfter l act (zoneAt s n)).1 ∧
        ∀ w, (zoneAfter l act (zoneAt s n)).2 = some w → zoneAt (applyZone l n act s).2 n = w := by
      obtain ⟨r, -, made, h⟩ | ⟨w, made, h⟩ := k <;> rw [made, h]
      · exact ⟨rfl, nofun⟩
      · exact ⟨rfl, fun v hv => by rw [zoneAt_acceptZone act w (by omega)]; exact Option.some.inj hv⟩
    obtain ⟨result, entry⟩ := applied
    refine ⟨fun no => absurd no barred, fun _ => ⟨?_, ?_, ?_, ?_⟩, ?_, ?_⟩
    · rintro b rfl
      rw [zoneAfter_write] at result entry
      exact ⟨result, (entry _ rfl).trans (by rw [originOf_eq])⟩
    · rintro rfl
      rw [zoneAfter_delete] at result entry
      split
      · rw [if_pos ‹_›] at result
        exact result
      · rw [if_neg ‹_›] at result entry
        exact ⟨result, entry _ rfl⟩
    · rintro rfl
      refine ⟨fun o b hz => ?_, fun hz => ?_⟩
      · rw [hz] at result entry
        exact ⟨result, entry _ rfl⟩
      · rw [zoneAfter_suspend l hz] at result
        exact result
    · rintro rfl
      refine ⟨fun o b hz => ?_, fun hz => ?_⟩
      · rw [hz] at result entry
        exact ⟨result, entry _ rfl⟩
      · rw [zoneAfter_resume l hz] at result
        exact result
    · obtain ⟨r, -, -, h⟩ | ⟨w, -, h⟩ := k <;> rw [h]
      · exact fun _ => rfl
      · exact fun no => absurd rfl no
    · obtain ⟨r, hr, -, h⟩ | ⟨w, -, h⟩ := k <;> rw [h]
      · exact fun ok => absurd ok hr
      · exact fun _ => acceptZone_spec act w hn hz hi hc

end Sys2Proof.Proofs
end

section
/-! SUPPORT. A SITE zone or plane is changed by requests of the service link alone (O59): what such an entry is guarded
against, and that every edit request and every step of the edit queue's application honours it. -/

namespace Sys2Proof.Proofs

open Sys2Proof Sys2Proof.Machine Sys2Proof.Laws

/-! ## What is guarded (R45) -/

/-- `keeps` is a property of a table's zones and plane that only edits of kind `kind` taken on SL may end. -/
structure Guarded (kind : Edit → Bool) (keeps : EnvTable → Prop) : Prop where
  same : ∀ {t u : EnvTable}, u.zones = t.zones → u.plane = t.plane → keeps t → keeps u
  edit : ∀ l e (s : State), keeps s.table → (l = .sl → kind e = false) → keeps (applyEdit l e s).2.table
  geometry : ∀ g, kind (.geometry g) = false

@[simp] theorem acceptPlane_zones (p : GradePlane) (s : State) : (acceptPlane p s).table.zones = s.table.zones := by
  rw [acceptPlane_eq, editRewrite_table]
  rfl

/-- A SITE zone entry is guarded: other links are refused its edits, and no other edit reaches it. -/
theorem guarded_zone {n : Nat} {z : Zone} (hz : isSite z = true) :
    Guarded (editsZone n) (fun t => t.zones.getD n .empty = z) where
  same zones _ h := by rw [zones]; exact h
  geometry _ := rfl
  edit l e s h off := by
    cases e with
    | zone m act =>
      obtain ⟨-, -, k⟩ | ⟨may, ⟨r, -, -, k⟩ | ⟨w, -, k⟩⟩ := applyZone_cases l m act s <;> simp only [applyEdit, k]
      · exact h
      · exact h
      · have other : n ≠ m := by
          rintro rfl
          have site : isSite (zoneAt s n) = true := by rw [zoneAt, h]; exact hz
          have service : l = .sl := may.resolve_right (by simp [site])
          simpa [editsZone] using off service
        exact (zoneAt_acceptZone_ne act w s other).trans h
    | grade act =>
      obtain ⟨-, -, k⟩ | ⟨-, ⟨-, -, k⟩ | ⟨-, -, k⟩ | ⟨b, -, k⟩⟩ := applyPlane_cases l act s <;>
        simpa only [applyEdit, k, acceptPlane_zones] using h
    | geometry g => simpa only [applyEdit, applyGeometry_table] using h

/-- A SITE plane is guarded: other links are refused its edits, and no zone edit reaches it. -/
theorem guarded_plane {p : GradePlane} (hp : planeIsSite p = true) : Guarded editsPlane (fun t => t.plane = p) where
  same _ plane h := by rw [plane]; exact h
  geometry _ := rfl
  edit l e s h off := by
    cases e with
    | zone m act =>
      obtain ⟨-, -, k⟩ | ⟨-, ⟨r, -, -, k⟩ | ⟨w, -, k⟩⟩ := applyZone_cases l m act s <;>
        simpa only [applyEdit, k, acceptZone_table] using h
    | grade act =>
      have away : l ≠ .sl := fun hl => by simpa [editsPlane] using off hl
      have barred : ¬(l = .sl ∨ planeIsSite s.table.plane = false) := by simp [away, h, hp]
      obtain ⟨-, -, k⟩ | ⟨may, -⟩ := applyPlane_cases l act s
      · simpa only [applyEdit, k] using h
      · exact absurd may barred
    | geometry g => simpa only [applyEdit, applyGeometry_table] using h

section
variable {kind : Edit → Bool} {keeps : EnvTable → Prop}

theorem Guarded.steady (guard : Guarded kind keeps) {s t : State} (h : Steady s t) (k : keeps s.table) : keeps t.table :=
  guard.same h.zones h.plane k

/-! ## One edit request -/

theorem Guarded.performEdit (guard : Guarded kind keeps) {s : State} {q : QueuedEdit} (h : keeps s.table)
    (off : q.link = .sl → kind q.edit = false) : keeps (performEdit s q).table := by
  simpa [Machine.performEdit] using guard.edit q.link q.edit s h off

theorem Guarded.takeEdit (guard : Guarded kind keeps) {l : Link} {e : Edit} {s : State} (h : keeps s.table)
    (off : l = .sl → kind e = false) : keeps (takeEdit l e s).table := by
  unfold Machine.takeEdit
  split
  · exact guard.performEdit h off
  · split
    · exact guard.same (t := s.table) rfl rfl h
    · exact guard.steady (steady_reply _ _ _ _ s) h

/-- A ZONE_EDIT at the table is answered BAD_FIELD, or an edit to take (R43). -/
theorem serveZoneEdit_cases (l : Link) (d : Payload) (s : State) :
    (∃ r x e, serveZoneEdit l d s = reply l r x e s) ∨
      ∃ x, takeZoneEdit d = some x ∧ serveZoneEdit l d s = takeEdit l (.zone x.1 x.2) s := by
  unfold serveZoneEdit
  split
  · exact .inr ⟨_, ‹_›, rfl⟩
  · exact .inl ⟨_, _, _, rfl⟩

/-- A SET_GRADE at the table is answered BAD_FIELD, or an edit to take (R52). -/
theorem serveSetGrade_cases (l : Link) (d : Payload) (s : State) :
    (∃ r x e, serveSetGrade l d s = reply l r x e s) ∨
      ∃ a p act, d = .setGrade a p ∧ takePlane a p = some act ∧ serveSetGrade l d s = takeEdit l (.grade act) s := by
  unfold serveSetGrade
  split
  · split
    · exact .inr ⟨_, _, _, rfl, ‹_›, rfl⟩
    · exact .inl ⟨_, _, _, rfl⟩
  · exact .inl ⟨_, _, _, rfl⟩

/-- A SET_GEOMETRY is answered BAD_FIELD, or an edit to take (R36). -/
theorem serveSetGeometry_cases (l : Link) (d : Payload) (s : State) :
    (∃ r x e, serveSetGeometry l d s = reply l r x e s) ∨
      ∃ g, serveSetGeometry l d s = takeEdit l (.geometry g) s := by
  unfold serveSetGeometry
  split
  · split
    · exact .inl ⟨_, _, _, rfl⟩
    · exact .inr ⟨_, rfl⟩
  · exact .inl ⟨_, _, _, rfl⟩

/-- A request of another link than SL leaves what is guarded. -/
theorem Guarded.serveEdit (guard : Guarded kind keeps) {l : Link} (away : l ≠ .sl) (d : Payload) {s : State}
    {serve : Link → Payload → State → State} (hs : serve ∈ [serveZoneEdit, serveSetGrade]) (h : keeps s.table) :
    keeps (serve l d s).table := by
  have answered : ∀ r x e, keeps (reply l r x e s).table := fun _ _ _ => guard.steady (steady_reply _ _ _ _ s) h
  have edited : ∀ e, keeps (Machine.takeEdit l e s).table := fun _ => guard.takeEdit h fun hl => absurd hl away
  obtain rfl | rfl : serve = serveZoneEdit ∨ serve = serveSetGrade := by simpa using hs
  · obtain ⟨_, _, _, k⟩ | ⟨_, -, k⟩ := serveZoneEdit_cases l d s <;> rw [k]
    · exact answered _ _ _
    · exact edited _
  · obtain ⟨_, _, _, k⟩ | ⟨_, _, _, -, -, k⟩ := serveSetGrade_cases l d s <;> rw [k]
    · exact answered _ _ _
    · exact edited _

/-- What a frame's edit request becomes at its owner: an answer, or an edit to take, of a kind that the frame asks for. -/
theorem serveEdit_cases (guard : Guarded kind keeps) (l : Link) {f : RxFrame} {serve : Payload → State → State}
    (hs : requestOf (frameCode f) = some .zoneEdit ∧ serve = serveZoneEdit l ∨
      requestOf (frameCode f) = some .setGrade ∧ serve = serveSetGrade l ∨
      requestOf (frameCode f) = some .setGeometry ∧ serve = serveSetGeometry l) (s : State) :
    (∃ r x e, serve f.data s = reply l r x e s) ∨
      ∃ e, serve f.data s = takeEdit l e s ∧ (asksEdit kind f = false → kind e = false) := by
  obtain ⟨hr, rfl⟩ | ⟨hr, rfl⟩ | ⟨-, rfl⟩ := hs
  · obtain k | ⟨x, hx, k⟩ := serveZoneEdit_cases l f.data s
    · exact .inl k
    · exact .inr ⟨_, k, fun h => by simpa [asksEdit, hr, hx] using h⟩
  · obtain k | ⟨a, p, act, hd, hx, k⟩ := serveSetGrade_cases l f.data s
    · exact .inl k
    · exact .inr ⟨_, k, fun h => by simpa [asksEdit, hr, hd, hx] using h⟩
  · obtain k | ⟨g, k⟩ := serveSetGeometry_cases l f.data s
    · exact .inl k
    · exact .inr ⟨_, k, fun _ => guard.geometry g⟩

/-! ## The application of the edit queue (R50) -/

/-- What keeps the guarded property through a completion: it holds, no edit that waits from SL is of the kind, and neither
is any that waits in SL's receive queue, when the completion takes frames from there. -/
structure Shielded (kind : Edit → Bool) (keeps : EnvTable → Prop) (takes : Prop) (s : State) : Prop where
  table : keeps s.table
  queue : ∀ q ∈ s.table.queue, q.link = .sl → kind q.edit = false
  rx : takes → ∀ f ∈ (portOf s .sl).rx, asksEdit kind f = false

/-- An answer sent leaves every receive queue. -/
@[simp] theorem sendAnswer_rx (l k : Link) (owed : Bool) (b : TxBody) (s : State) :
    (portOf (sendAnswer l owed b s) k).rx = (portOf s k).rx := by
  unfold sendAnswer
  by_cases h : k = l
  · subst h
    cases owed <;> simp [offerAnswer_owed]
  · rw [portOf_setPort_ne l k _ s h]

@[simp] theorem performEdit_rx (s : State) (q : QueuedEdit) (k : Link) :
    (portOf (performEdit s q) k).rx = (portOf s k).rx := by
  rw [← portOf_congr (applyEdit_ports q.link q.edit s) k]
  exact sendAnswer_rx _ _ _ _ _

@[simp] theorem takeEdit_rx (l k : Link) (e : Edit) (s : State) : (portOf (takeEdit l e s) k).rx = (portOf s k).rx := by
  unfold takeEdit
  split
  · exact performEdit_rx _ _ _
  · split
    · exact congrArg Port.rx (portOf_congr rfl k)
    · exact sendAnswer_rx _ _ _ _ _

/-- Taking a head frame brings no frame. -/
theorem mem_takeHead_rx {l k : Link} {s : State} {f : RxFrame} (h : f ∈ (portOf (takeHead l s) k).rx) :
    f ∈ (portOf s k).rx := by
  unfold takeHead at h
  by_cases hk : k = l
  · subst hk
    rw [portOf_setPort] at h
    exact List.mem_of_mem_tail h
  · rwa [portOf_setPort_ne l k _ s hk] at h

theorem serveFlags_rx (s : State) (k : Link) : (portOf (serveFlags s) k).rx = (portOf s k).rx := by
  have fold : ∀ (ws : List WaitingFlag) (t : State),
      (portOf (ws.foldl (performFlag .sl) t) k).rx = (portOf t k).rx := by
    intro ws
    induction ws with
    | nil => exact fun _ => rfl
    | cons w ws ih =>
      intro t
      rw [List.foldl_cons, ih, performFlag_eq, sendAnswer_rx]
      exact congrArg Port.rx (portOf_congr rfl k)
  rw [serveFlags_eq, fold]
  exact congrArg Port.rx (portOf_congr rfl k)

/-- Edits that wait from no link with a right to the guarded entry. -/
theorem Guarded.performEdits (guard : Guarded kind keeps) (qs : List QueuedEdit) {s : State} (h : keeps s.table)
    (off : ∀ q ∈ qs, q.link = .sl → kind q.edit = false) : keeps (qs.foldl Machine.performEdit s).table := by
  induction qs generalizing s with
  | nil => exact h
  | cons q qs ih =>
    exact ih (guard.performEdit h (off q List.mem_cons_self)) fun r hr => off r (List.mem_cons_of_mem _ hr)

variable {takes : Prop}

/-- An edit taken is applied, joins the queue or is answered BUSY (R44). -/
theorem Shielded.takeEdit (guard : Guarded kind keeps) {s : State} (h : Shielded kind keeps takes s) {l : Link} {e : Edit}
    (off : l = .sl → kind e = false) : Shielded kind keeps takes (takeEdit l e s) where
  table := guard.takeEdit h.table off
  rx ht := by rw [takeEdit_rx]; exact h.rx ht
  queue := by
    unfold Machine.takeEdit
    split
    · rw [performEdit_queue]; exact h.queue
    · split
      · intro q hq
        obtain hq | rfl : q ∈ s.table.queue ∨ q = ⟨l, true, e⟩ := by simpa using hq
        · exact h.queue q hq
        · exact off
      · rw [reply_table]; exact h.queue

theorem Shielded.sendAnswer {s : State} (h : Shielded kind keeps takes s) (l : Link) (owed : Bool) (b : TxBody) :
    Shielded kind keeps takes (sendAnswer l owed b s) where
  table := by rw [sendAnswer_table]; exact h.table
  queue := by rw [sendAnswer_table]; exact h.queue
  rx ht := by rw [sendAnswer_rx]; exact h.rx ht

theorem Shielded.takeHead {s : State} (h : Shielded kind keeps takes s) (l : Link) :
    Shielded kind keeps takes (takeHead l s) where
  table := by rw [takeHead_table]; exact h.table
  queue := by rw [takeHead_table]; exact h.queue
  rx ht f hf := h.rx ht f (mem_takeHead_rx hf)

/-- The edit at the head of the queue is applied and answered. -/
theorem Shielded.applyHead (guard : Guarded kind keeps) {s : State} (h : Shielded kind keeps takes s) :
    Shielded kind keeps takes (applyHead s) := by
  cases hq : s.table.queue with
  | nil => rw [applyHead_nil hq]; exact h
  | cons q rest =>
    have waits : ∀ r ∈ q :: rest, r.link = .sl → kind r.edit = false := hq ▸ h.queue
    rw [applyHead_cons hq]
    refine ⟨guard.performEdit (guard.same (t := s.table) rfl rfl h.table) (waits q List.mem_cons_self), ?_, fun ht => ?_⟩
    · rw [performEdit_queue]
      exact fun r hr => waits r (List.mem_cons_of_mem _ hr)
    · rw [performEdit_rx]
      exact h.rx ht

/-- One step of the queue's application, which takes frames from SL only in a completion that does (log 29). -/
theorem Shielded.editStep (guard : Guarded kind keeps) {s : State} (h : Shielded kind keeps takes s) {x : EditStep}
    (hx : x = .take .sl → takes) : Shielded kind keeps takes (editStep s x) := by
  cases x with
  | apply => exact h.applyHead guard
  | take l =>
    rw [editStep_take]
    obtain k | ⟨f, serve, head, k, hs⟩ := takeEditFrame_cases l s <;> rw [k]
    · exact h
    · have taken := h.takeHead l
      obtain k | ⟨b, k⟩ | ⟨f', head', k⟩ := takeRequest_cases (takerOf l f) l serve s <;> rw [k]
      · exact h
      · exact taken.sendAnswer _ _ _
      · obtain rfl : f = f' := by simpa [head] using head'
        obtain ⟨r, x, e, k⟩ | ⟨e, k, asked⟩ := serveEdit_cases guard l hs (Machine.takeHead l s) <;> rw [k]
        · exact taken.sendAnswer _ _ _
        · refine taken.takeEdit guard ?_
          rintro rfl
          exact asked (h.rx (hx rfl) f (List.mem_of_head? (headFrame_active head).2.2))

/-- Step 2 of R12, whole. -/
theorem Shielded.applyEdits (guard : Guarded kind keeps) (xs : List EditStep) {s : State}
    (h : Shielded kind keeps takes s) (hx : .take .sl ∈ xs → takes) : keeps (applyEdits xs s).table := by
  have stepped : Shielded kind keeps takes (xs.foldl Machine.editStep s) := by
    induction xs generalizing s with
    | nil => exact h
    | cons x xs ih =>
      exact ih (h.editStep guard fun hs => hx (hs ▸ List.mem_cons_self)) fun hs => hx (List.mem_cons_of_mem _ hs)
  exact guard.performEdits _ (guard.same (t := (xs.foldl Machine.editStep s).table) rfl rfl stepped.table) stepped.queue

/-! ## Every command -/

theorem Guarded.completeSolve (guard : Guarded kind keeps) {o : CompletionOrder} {s : State} (h : keeps s.table)
    (off : ¬serviceEdit kind (.solveCompletion o) s) (l : Latch) (p : PoseResult) (e : EvalResult) (a : AidsResult) :
    keeps (completeSolve o l p e a s).table := by
  have handed := quiet_handOffs o l p e a s
  have waiting : (serveFlags (handOffs o l p e a s)).table.queue = s.table.queue := by
    rw [serveFlags_spec]
    exact handed.queue
  have received : (portOf (serveFlags (handOffs o l p e a s)) .sl).rx = (portOf s .sl).rx := by
    rw [serveFlags_rx]
    exact (handed.ports .sl).only.2.2.1
  have served : Shielded kind keeps (.take .sl ∈ o.edits) (serveFlags (handOffs o l p e a s)) := by
    refine ⟨guard.steady ((steady_handOffs o l p e a s).trans (steady_serveFlags _)) h, fun q hq hl => ?_, fun ht f hf => ?_⟩
    · rw [waiting] at hq
      exact Bool.eq_false_iff.2 fun hk => off (.inl ⟨q, hq, hl, hk⟩)
    · rw [received] at hf
      exact Bool.eq_false_iff.2 fun hk => off (.inr ⟨ht, f, hf, hk⟩)
  exact guard.steady (steady_nextSolve _) (served.applyEdits guard o.edits id)

/-- Without a reset and without a request of the service link the guarded property holds on. -/
theorem Guarded.exec (guard : Guarded kind keeps) {c : Instr} {s t : State} (ht : exec c s = .next t)
    (hr : resets c s = false) (h : keeps s.table) (off : ¬serviceEdit kind c s) : keeps t.table := by
  cases he : editsTable c with
  | false =>
    obtain ⟨u, hu, k⟩ := exec_steady s c hr he
    obtain rfl : u = t := by simpa [hu] using ht
    exact guard.steady k h
  | true =>
    obtain ⟨l, serve, hs, hc, service⟩ | ⟨o, rfl⟩ := editsTable_cases he
    · have away : l ≠ .sl := fun hl => off (service hl kind s)
      have taken : keeps (Machine.takeHead l s).table := by rwa [takeHead_table]
      rw [hc] at ht
      cases ht
      obtain k | ⟨b, k⟩ | ⟨f, -, k⟩ := takeRequest_cases c l (serve l) s <;> rw [k]
      · exact h
      · rwa [sendAnswer_table]
      · exact guard.serveEdit away _ hs taken
    · simp only [Machine.exec, execSolveCompletion] at ht
      split at ht <;> cases ht
      · exact guard.completeSolve h off _ _ _ _
      · exact h

end

/-- Settles O59: a SITE zone by `guarded_zone`, a SITE plane by `guarded_plane`. -/
theorem siteEntriesYieldToServiceOnly : Obligations.SiteEntriesYieldToServiceOnly := fun _ _ _ ht hr =>
  ⟨fun _ hz off => (guarded_zone hz).exec ht hr rfl off, fun hp off => (guarded_plane hp).exec ht hr rfl off⟩

end Sys2Proof.Proofs
end

section
/-! SUPPORT. The byte layouts of section 11.6 read back (O12): words, two's complement, masks, and the two frames. -/

namespace Sys2Proof.Proofs

open Sys2Proof Sys2Proof.Machine Sys2Proof.Laws

/-! ## Bytes and words -/

@[simp] theorem toByte_toNat (n : Nat) : (toByte n).toNat = n % 256 := by simp [toByte]

@[simp] theorem byteAt_cons_zero (a : Byte) (b : List Byte) : byteAt (a :: b) 0 = a.toNat := rfl

@[simp] theorem byteAt_cons_succ (a : Byte) (b : List Byte) (i : Nat) : byteAt (a :: b) (i + 1) = byteAt b i := rfl

@[simp] theorem wordAt_cons (a : Byte) (b : List Byte) (i : Nat) : wordAt (a :: b) (i + 1) = wordAt b i := rfl

/-- A word read where it was written. -/
@[simp] theorem wordAt_wordBytes (n : Nat) (b : List Byte) : wordAt (wordBytes n ++ b) 0 = n % 65536 := by
  simp only [wordAt, wordBytes, List.cons_append, byteAt_cons_zero, byteAt_cons_succ, toByte_toNat]
  omega

/-- A word read behind another. -/
@[simp] theorem wordAt_wordBytes_skip (n : Nat) (b : List Byte) (i : Nat) :
    wordAt (wordBytes n ++ b) (i + 2) = wordAt b i := rfl

@[simp] theorem length_wordBytes (n : Nat) : (wordBytes n).length = 2 := rfl

/-- A two's complement pattern gives its value. -/
theorem signed16_of_fits {x : Int} (h : fitsSigned x = true) : signed16 ((x % 65536).toNat % 65536) = x := by
  obtain ⟨lo, hi⟩ : -32768 ≤ x ∧ x ≤ 32767 := by simpa [fitsSigned] using h
  unfold signed16
  split <;> omega

/-! ## Masks -/

/-- A list of marks as a number, the first the least significant bit. -/
def maskOf : List Bool → Nat
  | [] => 0
  | b :: bs => bit b + 2 * maskOf bs

theorem bit_le_one (b : Bool) : bit b ≤ 1 := by cases b <;> decide

theorem maskOf_lt (bs : List Bool) : maskOf bs < 2 ^ bs.length := by
  induction bs with
  | nil => decide
  | cons b bs ih =>
    have := bit_le_one b
    rw [maskOf, List.length_cons, Nat.pow_succ]
    omega

/-- Each mark of a mask reads back. -/
theorem flagOf_maskOf (bs : List Bool) (k : Nat) : flagOf (maskOf bs) k = bs.getD k false := by
  induction bs generalizing k with
  | nil => simp [flagOf, maskOf]
  | cons b bs ih =>
    cases k with
    | zero => cases b <;> simp [flagOf, maskOf, bit, Nat.add_mul_mod_self_left]
    | succ k =>
      have half : (bit b + 2 * maskOf bs) / 2 = maskOf bs := by
        have := bit_le_one b
        omega
      rw [List.getD_cons_succ, ← ih]
      simp only [flagOf, maskOf, Nat.pow_succ', ← Nat.div_div_eq_div_mul, half]

/-- The fourteen marks of a validity mask in their order. -/
def validityMarks (v : Validity) : List Bool :=
  [v.boomPrimary, v.boomSecondary, v.arm, v.bucket, v.slew, v.pitch, v.roll, v.boomHead, v.boomRod, v.armHead, v.engine,
    v.fuel, v.coolant, v.oil]

theorem validityMask_eq (v : Validity) : validityMask v = maskOf (validityMarks v) := by
  simp only [validityMask, validityMarks, maskOf]
  omega

theorem validityMask_lt (v : Validity) : validityMask v < 16384 := by
  have marks : (validityMarks v).length = 14 := rfl
  have below := maskOf_lt (validityMarks v)
  rw [marks] at below
  rw [validityMask_eq]
  omega

/-- The validity mask reads back. -/
@[simp] theorem readValidity_validityMask (v : Validity) : readValidity (validityMask v) = v := by
  rw [validityMask_eq]
  simp [readValidity, flagOf_maskOf, validityMarks]

/-- The marks of a mask that fits its byte read back from it. -/
theorem flagOf_byte {bs : List Bool} (h : bs.length ≤ 8) (k : Nat) : flagOf (maskOf bs % 256) k = bs.getD k false := by
  have below : maskOf bs < 256 := (maskOf_lt bs).trans_le (Nat.pow_le_pow_right (by decide) h)
  rw [Nat.mod_eq_of_lt below, flagOf_maskOf]

/-! ## Fields -/

/-- A signed field reads back from where it was written. -/
theorem signedAt_intBytes {x : Int} (h : fitsSigned x = true) (b : List Byte) : signedAt (intBytes x ++ b) 0 = x := by
  rw [signedAt, intBytes, wordAt_wordBytes]
  exact signed16_of_fits h

/-- An unsigned field reads back from where it was written. -/
theorem wordAt_intBytes {x : Int} (lo : 0 ≤ x) (hi : x ≤ 65535) (b : List Byte) :
    (wordAt (intBytes x ++ b) 0 : Int) = x := by
  rw [intBytes, wordAt_wordBytes]
  omega

/-- A limited unsigned field reads back where it keeps its limit (R181). -/
theorem min_wordAt_intBytes {x m : Int} (h : 0 ≤ x ∧ x ≤ m) (hm : m ≤ 65535) (b : List Byte) :
    min m (wordAt (intBytes x ++ b) 0 : Int) = x := by
  rw [wordAt_intBytes h.1 (h.2.trans hm)]
  exact min_eq_right h.2

/-- A limited signed field reads back where it keeps its range (R181). -/
theorem clamp_signedAt_intBytes {x lo hi : Int} (h : lo ≤ x ∧ x ≤ hi) (hl : -32768 ≤ lo) (hh : hi ≤ 32767)
    (b : List Byte) : clamp lo hi (signedAt (intBytes x ++ b) 0) = x := by
  have fits : fitsSigned x = true := by
    simp only [fitsSigned, Bool.and_eq_true, decide_eq_true_eq]
    omega
  rw [signedAt_intBytes fits, clamp, if_neg (by omega), if_neg (by omega)]

theorem wordAt_intBytes_skip (x : Int) (b : List Byte) (i : Nat) : wordAt (intBytes x ++ b) (i + 2) = wordAt b i := rfl

theorem signedAt_intBytes_skip (x : Int) (b : List Byte) (i : Nat) :
    signedAt (intBytes x ++ b) (i + 2) = signedAt b i := rfl

theorem signedAt_wordBytes_skip (n : Nat) (b : List Byte) (i : Nat) :
    signedAt (wordBytes n ++ b) (i + 2) = signedAt b i := rfl

theorem signedAt_cons (a : Byte) (b : List Byte) (i : Nat) : signedAt (a :: b) (i + 1) = signedAt b i := rfl

/-! ## SAMPLE -/

theorem sampleBytes_length (x : Sample) : (sampleBytes x).length = 34 := by
  simp [sampleBytes, intBytes]

theorem readSample_sampleBytes {x : Sample} (h : SampleOk x) : readSample (sampleBytes x) = some x := by
  obtain ⟨seq, timestamp, boomPrimary, boomSecondary, arm, bucket, slew, pitch, roll, boomHead, boomRod, armHead, engine,
    fuel, coolant, oil⟩ := h
  have valid : readValidity (validityMask x.valid % 65536) = x.valid := by
    rw [Nat.mod_eq_of_lt ((validityMask_lt x.valid).trans (by decide)), readValidity_validityMask]
  have flags : bit x.lever + 2 * bit x.travel + 4 * bit x.operator = maskOf [x.lever, x.travel, x.operator] := by
    simp only [maskOf]
    omega
  have flag : ∀ k, flagOf (maskOf [x.lever, x.travel, x.operator] % 256) k = [x.lever, x.travel, x.operator].getD k false :=
    flagOf_byte (by simp)
  have ends : sampleBytes x = sampleBytes x ++ [] := (List.append_nil _).symm
  unfold readSample
  rw [if_neg (by rw [sampleBytes_length]; decide), ends]
  simp only [sampleBytes, List.append_assoc, List.cons_append, List.nil_append, byteAt_cons_zero, byteAt_cons_succ,
    wordAt_cons, signedAt_cons, wordAt_wordBytes, wordAt_wordBytes_skip, signedAt_wordBytes_skip, wordAt_intBytes_skip,
    signedAt_intBytes_skip, toByte_toNat]
  rw [Nat.mod_eq_of_lt seq, Nat.mod_eq_of_lt timestamp, valid, flags, flag, flag, flag, signedAt_intBytes boomPrimary,
    signedAt_intBytes boomSecondary, signedAt_intBytes arm, signedAt_intBytes bucket, wordAt_intBytes slew.1 slew.2,
    signedAt_intBytes pitch, signedAt_intBytes roll, min_wordAt_intBytes boomHead (by decide),
    min_wordAt_intBytes boomRod (by decide), min_wordAt_intBytes armHead (by decide), wordAt_intBytes engine.1 engine.2,
    min_wordAt_intBytes fuel (by decide), clamp_signedAt_intBytes coolant (by decide) (by decide),
    clamp_signedAt_intBytes oil (by decide) (by decide)]
  rfl

/-! ## ZONE_EDIT WRITE -/

@[simp] theorem readKind_kindCode (k : ZoneKind) : readKind (kindCode k % 256) = some k := by cases k <;> rfl

/-- The fields of a WRITE read back as they were laid out. -/
theorem readZoneBody_zoneWriteBytes (n : Nat) {b : ZoneBody} (h : ZoneFits b) :
    readZoneBody (zoneWriteBytes n b) = some b := by
  obtain ⟨start, stop, limit, margin⟩ := h
  have full : flagOf (bit b.full % 256) 0 = b.full := flagOf_byte (bs := [b.full]) (by simp) 0
  have ends : zoneWriteBytes n b = zoneWriteBytes n b ++ [] := (List.append_nil _).symm
  unfold readZoneBody
  rw [ends]
  simp only [zoneWriteBytes, List.append_assoc, List.cons_append, List.nil_append, byteAt_cons_zero, byteAt_cons_succ,
    wordAt_cons, signedAt_cons, wordAt_intBytes_skip, signedAt_intBytes_skip, toByte_toNat, readKind_kindCode,
    Option.map_some]
  rw [full, wordAt_intBytes start.1 start.2, wordAt_intBytes stop.1 stop.2, signedAt_intBytes limit,
    wordAt_intBytes margin.1 margin.2]

/-- The clamps of R43 on a body that its frame's fields could carry. -/
theorem clampZone_of_fits {b : ZoneBody} (h : ZoneFits b) :
    clampZone b = { b with
      margin := if b.kind = .sectorStop then min 8192 b.margin else min 5000 b.margin
      limit := if b.kind = .sectorStop then 0 else b.limit } := by
  obtain ⟨-, -, -, positive, -⟩ := h
  have upper : ∀ m : Int, 0 ≤ m → clamp 0 m b.margin = min m b.margin := fun m hm => by
    unfold clamp
    split
    · omega
    · split <;> omega
  have margin : clampMargin b.kind b.margin = if b.kind = .sectorStop then min 8192 b.margin else min 5000 b.margin := by
    cases b.kind <;> exact upper _ (by decide)
  rw [clampZone, margin]

/-- Settles O12: each field by the lemma of its form. -/
theorem frameLayoutsRoundTrip : Obligations.FrameLayoutsRoundTrip := by
  refine ⟨fun x h => ⟨sampleBytes_length x, readSample_sampleBytes h⟩, fun n b hn h width => ⟨?_, ?_⟩⟩
  · simp [zoneWriteBytes, intBytes]
  · have number : byteAt (zoneWriteBytes n b) 0 = n := by
      simp only [zoneWriteBytes, List.cons_append, byteAt_cons_zero, toByte_toNat]
      omega
    have action : byteAt (zoneWriteBytes n b) 1 = 0 := rfl
    have written : takeZoneWrite (zoneWriteBytes n b) = some (.write (clampZone b)) := by
      have wide : ¬(sectorWidth b = 0 ∧ b.full = false) := by
        rintro ⟨none, part⟩
        exact width.elim (fun h => h none) (by simp [part])
      simp only [takeZoneWrite, readZoneBody_zoneWriteBytes n h, if_neg wide]
    simp only [takeZoneEdit, number, action, written, Option.map_some, clampZone_of_fits h]
    exact if_neg (by simpa [Config.zoneCount] using hn)

end Sys2Proof.Proofs
end

section

/-! SUPPORT. What each kind of entry contributes to each actuator's scale (R40 to R42, R61 to R68), for O19; O20 uses
the rules about the sector and the approaches. -/

namespace Sys2Proof.Proofs

open Sys2Proof Sys2Proof.Machine Sys2Proof.Laws

/-! ## Sector and distance (R40, R61) -/

theorem insideSector_iff (b : ZoneBody) (psi : Int) :
    insideSector b psi = true ↔ b.full = true ∨ (psi - b.start) % 65536 < (b.stop - b.start) % 65536 := by
  rw [insideSector, Bool.or_eq_true, decide_eq_true_iff]
  rfl

theorem insideSector_of_full {b : ZoneBody} (h : b.full = true) (psi : Int) : insideSector b psi = true :=
  (insideSector_iff b psi).2 (.inl h)

/-- The distance of each kind that has one. -/
theorem limitDistance_of_kind (b : ZoneBody) (p : Points) :
    (b.kind = .ceiling → limitDistance b p = b.limit - max p.p1.z (max p.p2.z p.p3.z)) ∧
    (b.kind = .floor → limitDistance b p = p.p3.z - b.limit) ∧
    (b.kind = .reachWall → limitDistance b p = b.limit - max p.p1.r (max p.p2.r p.p3.r)) := by
  unfold limitDistance
  refine ⟨fun kind => ?_, fun kind => ?_, fun kind => ?_⟩ <;> rw [kind] <;> rfl

/-! ## The approaches an entry forms (R65, R67) -/

theorem approaches_of_stop {b : ZoneBody} (i : EvalInput) (h : b.kind = .sectorStop) :
    approaches i b = stopApproaches i b := by
  unfold approaches
  rw [h]

theorem approaches_of_limit {b : ZoneBody} (i : EvalInput) (h : b.kind ≠ .sectorStop) :
    approaches i b = guardApproaches i b := by
  unfold approaches
  split
  · exact absurd ‹_› h
  · rfl

/-- Inside its sector, and at the margin or farther from a limit, an entry forms no allowance. -/
theorem approaches_none {i : EvalInput} {b : ZoneBody}
    (h : insideSector b i.psi = true ∨ b.kind ≠ .sectorStop ∧ b.margin ≤ limitDistance b i.points) :
    approaches i b = ⟨none, none⟩ := by
  by_cases kind : b.kind = .sectorStop
  · have inside : insideSector b i.psi = true := h.resolve_right fun far => far.1 kind
    rw [approaches_of_stop i kind, stopApproaches, if_pos inside, noApproach]
  · rw [approaches_of_limit i kind, guardApproaches, if_pos (h.imp_right And.right), noApproach]

/-- Outside its sector a stop forms both allowances. -/
theorem approaches_stop_outside {i : EvalInput} {b : ZoneBody} (kind : b.kind = .sectorStop)
    (outside : insideSector b i.psi = false) :
    approaches i b =
      ⟨some (slewAllowance ((b.start - i.psi) % 65536) b.margin i.alpha i.geometry.ratedSlew),
        some (slewAllowance ((i.psi - b.stop) % 65536) b.margin i.alpha i.geometry.ratedSlew)⟩ := by
  rw [approaches_of_stop i kind, stopApproaches, if_neg (by simp [outside])]
  rfl

/-- Outside its sector a limit within its margin guards the nearer edge of the sector, both at equal distance. -/
theorem approaches_limit_outside {i : EvalInput} {b : ZoneBody} (kind : b.kind ≠ .sectorStop)
    (outside : insideSector b i.psi = false) (near : limitDistance b i.points < b.margin) :
    approaches i b =
      ⟨if (b.start - i.psi) % 65536 ≤ (i.psi - b.stop) % 65536 then
          some (guardAllowance i (limitDistance b i.points) ((b.start - i.psi) % 65536)) else none,
        if (i.psi - b.stop) % 65536 ≤ (b.start - i.psi) % 65536 then
          some (guardAllowance i (limitDistance b i.points) ((i.psi - b.stop) % 65536)) else none⟩ := by
  rw [approaches_of_limit i kind, guardApproaches, if_neg (by simp [outside, near])]
  rfl

theorem guardAllowance_eq (i : EvalInput) (distance d : Int) :
    guardAllowance i distance d =
      if distance < 0 then ⟨0, 0, d⟩ else slewAllowance d i.geometry.slewGuard i.alpha i.geometry.ratedSlew := rfl

theorem guardAllowance_scale (i : EvalInput) (distance d : Int) :
    (guardAllowance i distance d).scale =
      if distance < 0 then 0
      else (slewAllowance d i.geometry.slewGuard i.alpha i.geometry.ratedSlew).scale := by
  rw [guardAllowance_eq]
  split <;> rfl

/-! ## Contributions -/

theorem contribution_of_idle {t : EnvTable} {n : Nat} (h : entryView t n = .idle) (i : EvalInput) (a : Actuator) :
    contribution i t n a = none := by
  simp only [contribution, h]

theorem contribution_of_faulted {t : EnvTable} {n : Nat} (h : entryView t n = .faulted) (i : EvalInput) (a : Actuator) :
    contribution i t n a = if faultConstrains n a then some (actGet i.geometry.fallback a) else none := by
  simp only [contribution, h]

/-- Outside its sector an ACTIVE entry contributes through the allowances it forms. -/
theorem contribution_outside {i : EvalInput} {t : EnvTable} {n : Nat} {b : ZoneBody} (h : entryView t n = .active b)
    (outside : insideSector b i.psi = false) (a : Actuator) :
    contribution i t n a = approachScale (approaches i b) a := by
  simp [contribution, h, activeContribution, outside]

/-- Inside its sector a stop contributes its escape scales. -/
theorem contribution_stop_inside {i : EvalInput} {t : EnvTable} {n : Nat} {b : ZoneBody} (h : entryView t n = .active b)
    (kind : b.kind = .sectorStop) (inside : insideSector b i.psi = true) (a : Actuator) :
    contribution i t n a = escapeScale i b a := by
  simp [contribution, h, activeContribution, inside, kind]

theorem marginScale_eq (distance margin : Int) :
    marginScale distance margin =
      if 0 < margin then max 0 (min 1000 (1000 * distance / margin)) else if 0 < distance then 1000 else 0 := by
  rw [marginScale, clamp_eq (by decide)]

/-- Inside its sector a limit contributes its in-sector scale to the actuators its kind constrains. -/
theorem contribution_limit_inside {i : EvalInput} {t : EnvTable} {n : Nat} {b : ZoneBody} (h : entryView t n = .active b)
    (kind : b.kind ≠ .sectorStop) (inside : insideSector b i.psi = true) (a : Actuator) :
    contribution i t n a =
      if kindConstrains b.kind a then some (marginScale (limitDistance b i.points) b.margin) else none := by
  simp only [contribution, h, activeContribution, inside, if_true]

@[simp] theorem approachScale_none (a : Actuator) : approachScale ⟨none, none⟩ a = none := by cases a <;> rfl

/-- Allowances act on the slew alone. -/
theorem approachScale_of_front {a : Actuator} (h : isFront a = true) (x : Approaches) : approachScale x a = none := by
  cases a with
  | slewCcw => cases h
  | slewCw => cases h
  | _ => rfl

theorem escapeScale_of_front {a : Actuator} (h : isFront a = true) (i : EvalInput) (b : ZoneBody) :
    escapeScale i b a = none := by
  cases a with
  | slewCcw => cases h
  | slewCw => cases h
  | _ => rfl

/-- A stop never acts on the front. -/
theorem contribution_stop_front {i : EvalInput} {t : EnvTable} {n : Nat} {a : Actuator} {b : ZoneBody}
    (h : entryView t n = .active b) (kind : b.kind = .sectorStop) (front : isFront a = true) :
    contribution i t n a = none := by
  cases inside : insideSector b i.psi with
  | true => rw [contribution_stop_inside h kind inside, escapeScale_of_front front]
  | false => rw [contribution_outside h inside, approachScale_of_front front]

/-- A limit outside its sector does not act on the front, and beyond its margin on nothing. -/
theorem contribution_limit_quiet {i : EvalInput} {t : EnvTable} {n : Nat} {a : Actuator} {b : ZoneBody}
    (h : entryView t n = .active b) (kind : b.kind ≠ .sectorStop) (outside : insideSector b i.psi = false)
    (quiet : isFront a = true ∨ b.margin ≤ limitDistance b i.points) : contribution i t n a = none := by
  rw [contribution_outside h outside]
  rcases quiet with front | far
  · exact approachScale_of_front front _
  · rw [approaches_none (.inr ⟨kind, far⟩), approachScale_none]

/-- A limit outside its sector and within its margin guards the slew toward the nearer edge of the sector. -/
theorem contribution_limit_guard {i : EvalInput} {t : EnvTable} {n : Nat} {b : ZoneBody} (h : entryView t n = .active b)
    (kind : b.kind ≠ .sectorStop) (outside : insideSector b i.psi = false)
    (near : limitDistance b i.points < b.margin) :
    contribution i t n .slewCcw =
      (if (b.start - i.psi) % 65536 ≤ (i.psi - b.stop) % 65536 then
        some (guardAllowance i (limitDistance b i.points) ((b.start - i.psi) % 65536)).scale else none) ∧
    contribution i t n .slewCw =
      (if (i.psi - b.stop) % 65536 ≤ (b.start - i.psi) % 65536 then
        some (guardAllowance i (limitDistance b i.points) ((i.psi - b.stop) % 65536)).scale else none) := by
  rw [contribution_outside h outside, contribution_outside h outside, approaches_limit_outside kind outside near]
  constructor
  · simp only [approachScale]
    split <;> rfl
  · simp only [approachScale]
    split <;> rfl

/-- A stop of a full circle leaves no way out. -/
theorem escapeScale_of_full {b : ZoneBody} (full : b.full = true) (i : EvalInput) :
    escapeScale i b .slewCcw = some 0 ∧ escapeScale i b .slewCw = some 0 := by
  simp [escapeScale, full]

/-- Inside a stop sector the slew escapes over the nearer edge, over both at equal distance. -/
theorem escapeScale_of_sector {b : ZoneBody} (sector : b.full = false) (i : EvalInput) :
    escapeScale i b .slewCcw =
      some (if (b.stop - i.psi) % 65536 ≤ (i.psi - b.start) % 65536 + 1 then i.geometry.escape else 0) ∧
    escapeScale i b .slewCw =
      some (if (i.psi - b.start) % 65536 + 1 ≤ (b.stop - i.psi) % 65536 then i.geometry.escape else 0) := by
  simp only [escapeScale, exitCcw, exitCw, circle, sector, true_and]
  constructor
  · split <;> rfl
  · split <;> rfl

/-- Settles O19, by the kind of the entry and whether the slew angle lies inside its sector. -/
theorem entriesContributeByKind : Obligations.EntriesContributeByKind := by
  refine ⟨fun b p psi => ?_, fun i b => ⟨fun _ _ => rfl, approaches_none, approaches_stop_outside, ?_⟩,
    fun i t n a => ⟨fun idle => contribution_of_idle idle i a, fun faulted => contribution_of_faulted faulted i a,
      fun b active => ⟨?_, ?_, contribution_stop_front active, ?_, ?_, ?_⟩⟩⟩
  · obtain ⟨ceiling, floor, wall⟩ := limitDistance_of_kind b p
    exact ⟨ceiling, floor, wall, insideSector_iff b psi⟩
  · intro kind outside near
    exact approaches_limit_outside kind outside near
  · intro kind inside
    rw [contribution_limit_inside active kind inside, marginScale_eq]
  · intro kind outside
    refine ⟨contribution_limit_quiet active kind outside, fun near => ?_⟩
    simpa only [guardAllowance_scale] using contribution_limit_guard active kind outside near
  · intro kind outside
    rw [contribution_outside active outside, contribution_outside active outside, approaches_stop_outside kind outside]
    exact ⟨rfl, rfl⟩
  · intro kind full
    rw [contribution_stop_inside active kind (insideSector_of_full full _),
      contribution_stop_inside active kind (insideSector_of_full full _)]
    exact escapeScale_of_full full i
  · intro kind sector inside
    rw [contribution_stop_inside active kind inside, contribution_stop_inside active kind inside]
    exact escapeScale_of_sector sector i

end Sys2Proof.Proofs

end

section

/-! SUPPORT. Stage EVALUATE of a usable pose (R54, R60, R73 to R76), for O20. -/

namespace Sys2Proof.Proofs

open Sys2Proof Sys2Proof.Machine Sys2Proof.Laws

/-! ## What the evaluation reads (R54, R60) -/

theorem usablePoints_of_usable {p : PoseResult} {pts : Points} (h : UsablePose p pts) : usablePoints p = some pts := by
  obtain ⟨quality, points⟩ := h
  rw [usablePoints, points]
  rcases quality with good | degraded
  · rw [good]
    rfl
  · rw [degraded]
    rfl

theorem chooseAlpha_eq (g : Geometry) (phase : Phase) :
    chooseAlpha g phase = if phase = .swingLoaded then g.alphaLoaded else g.alphaEmpty := by cases phase <;> rfl

theorem withFloorLimit_of_not_holding (pts : Points) {t : EnvTable} (h : holdActive t.plane = false) :
    (withFloorLimit pts t).floorLimit = t.floorLimit := by
  unfold withFloorLimit
  split
  · rename_i o b plane
    rw [plane] at h
    rw [if_neg (by simpa [holdActive] using h)]
  · rfl

theorem withFloorLimit_of_holding (pts : Points) {t : EnvTable} {o : Origin} {b : PlaneBody}
    (h : t.plane = .present o b) (hold : b.hold = true) :
    (withFloorLimit pts t).floorLimit = some (b.elevation + Int.tdiv (pts.p3.r * b.slope) 1000) := by
  simp only [withFloorLimit, h, hold, if_true, designHeight, truncDiv]

/-! ## Marks (R73, R74) -/

@[simp] theorem length_marksAfter (f : Nat → Bool → Bool) (marks : List Bool) :
    (marksAfter f marks).length = marks.length := List.length_mapIdx

theorem getD_marksAfter (f : Nat → Bool → Bool) {marks : List Bool} {n : Nat} (h : n < marks.length) :
    (marksAfter f marks).getD n false = f n (marks.getD n false) := by
  simp [marksAfter, h]

theorem isLimit_iff (b : ZoneBody) : isLimit b = true ↔ b.kind ≠ .sectorStop := by simp [isLimit]

theorem isLimit_eq_false_iff (b : ZoneBody) : isLimit b = false ↔ b.kind = .sectorStop := by simp [isLimit]

theorem frontClear_iff (i : EvalInput) (b : ZoneBody) :
    frontClear i b = true ↔ insideSector b i.psi = false ∨ 0 ≤ limitDistance b i.points := by simp [frontClear]

theorem frontClear_eq_false_iff (i : EvalInput) (b : ZoneBody) :
    frontClear i b = false ↔ insideSector b i.psi = true ∧ limitDistance b i.points < 0 := by simp [frontClear]

/-- A stop moves its inside mark alone. -/
theorem marks_of_stop {i : EvalInput} {t : EnvTable} {n : Nat} {b : ZoneBody} (h : entryView t n = .active b)
    (kind : b.kind = .sectorStop) (inside clear : Bool) :
    insideAfter i t n inside = insideSector b i.psi ∧ clearAfter i t n clear = clear := by
  simp [insideAfter, clearAfter, h, (isLimit_eq_false_iff b).2 kind]

/-- A limit moves its clear mark alone. -/
theorem marks_of_limit {i : EvalInput} {t : EnvTable} {n : Nat} {b : ZoneBody} (h : entryView t n = .active b)
    (kind : b.kind ≠ .sectorStop) (inside clear : Bool) :
    insideAfter i t n inside = inside ∧
      (clearAfter i t n clear = true ↔ insideSector b i.psi = false ∨ 0 ≤ limitDistance b i.points) := by
  simp [insideAfter, clearAfter, h, (isLimit_iff b).2 kind, frontClear_iff]

/-- An entry that is not ACTIVE moves no mark. -/
theorem marks_of_not_active {i : EvalInput} {t : EnvTable} {n : Nat} (h : ∀ b, entryView t n ≠ .active b)
    (inside clear : Bool) : insideAfter i t n inside = inside ∧ clearAfter i t n clear = clear := by
  unfold insideAfter clearAfter
  split
  · exact absurd ‹_› (h _)
  · exact ⟨rfl, rfl⟩

/-! ## Events (R73 to R76) -/

/-- A search over the entries that numbers each find by its entry finds in ascending order, and finds exactly what each
entry gives. -/
theorem filterMap_entryNumbers {α : Type} {f : Nat → Option α} {number : α → Nat}
    (numbered : ∀ n x, f n = some x → number x = n) :
    Ascending number (entryNumbers.filterMap f) ∧
      ∀ x, x ∈ entryNumbers.filterMap f ↔ number x ≤ 32 ∧ f (number x) = some x := by
  constructor
  · refine List.pairwise_filterMap.2 (List.pairwise_lt_range.imp fun {m n} less x hx y hy => ?_)
    rw [numbered m x hx, numbered n y hy]
    exact less
  · intro x
    have bound (n : Nat) : n ∈ entryNumbers ↔ n ≤ 32 := List.mem_range.trans Nat.lt_succ_iff
    rw [List.mem_filterMap]
    constructor
    · rintro ⟨n, mem, found⟩
      rw [numbered n x found]
      exact ⟨(bound n).1 mem, found⟩
    · rintro ⟨le, found⟩
      exact ⟨number x, (bound _).2 le, found⟩

/-- When the slew enters the sector of a stop. -/
theorem slewEntryEvent_eq_some {i : EvalInput} {t : EnvTable} {inside : List Bool} {n : Nat} {x : SlewEntryStamp} :
    slewEntryEvent i t inside n = some x ↔
      x = ⟨n, i.psi, i.omega, i.seq⟩ ∧ ∃ b, entryView t n = .active b ∧ b.kind = .sectorStop ∧
        insideSector b i.psi = true ∧ inside.getD n false = false := by
  unfold slewEntryEvent
  split
  · rename_i b active
    simp only [active, EntryView.active.injEq, isLimit_eq_false_iff, Option.ite_none_right_eq_some, Option.some.injEq]
    constructor
    · rintro ⟨⟨kind, isInside, mark⟩, rfl⟩
      exact ⟨rfl, b, rfl, kind, isInside, mark⟩
    · rintro ⟨rfl, _, rfl, kind, isInside, mark⟩
      exact ⟨⟨kind, isInside, mark⟩, rfl⟩
  · rename_i other
    simp only [reduceCtorEq, false_iff]
    rintro ⟨_, b, active, _⟩
    exact other b active

/-- When the front crosses a limit inside its sector. -/
theorem breachEvent_eq_some {i : EvalInput} {t : EnvTable} {clear : List Bool} {n : Nat} {x : LimitBreachStamp} :
    breachEvent i t clear n = some x ↔
      ∃ b, x = ⟨n, b.kind, sat16 (limitDistance b i.points), i.psi, i.seq⟩ ∧ entryView t n = .active b ∧
        b.kind ≠ .sectorStop ∧ insideSector b i.psi = true ∧ limitDistance b i.points < 0 ∧
        clear.getD n false = true := by
  unfold breachEvent
  split
  · rename_i b active
    simp only [active, EntryView.active.injEq, isLimit_iff, frontClear_eq_false_iff, Option.ite_none_right_eq_some,
      Option.some.injEq]
    constructor
    · rintro ⟨⟨kind, ⟨isInside, below⟩, mark⟩, rfl⟩
      exact ⟨b, rfl, rfl, kind, isInside, below, mark⟩
    · rintro ⟨_, rfl, rfl, kind, isInside, below, mark⟩
      exact ⟨⟨kind, ⟨isInside, below⟩, mark⟩, rfl⟩
  · rename_i other
    simp only [reduceCtorEq, false_iff]
    rintro ⟨b, _, active, _⟩
    exact other b active

theorem isLate_iff (omega : Int) (y : Allowance) : isLate omega y = true ↔ 11 * y.omegaMax < 10 * |omega| := by
  rw [isLate, decide_eq_true_iff, magnitude_eq_abs]

/-- A late-braking record is that of an allowance the slew is late for. -/
theorem lateRecord_eq_some {i : EvalInput} {n : Nat} {dir : Direction} {a : Option Allowance} {x : LateBrakingStamp} :
    lateRecord i n dir a = some x ↔
      ∃ y, a = some y ∧ 11 * y.omegaMax < 10 * |i.omega| ∧ x = ⟨n, dir, i.omega, y.omegaMax, y.distance, i.seq⟩ := by
  cases a with
  | none => simp [lateRecord]
  | some y =>
    simp only [lateRecord, isLate_iff, Option.ite_none_right_eq_some, Option.some.injEq, exists_eq_left']
    exact and_congr_right fun _ => eq_comm

/-- When the slew approaches an entry too fast, in its direction of motion. -/
theorem lateEvent_eq_some {i : EvalInput} {t : EnvTable} {n : Nat} {x : LateBrakingStamp} :
    lateEvent i t n = some x ↔
      ∃ b dir, entryView t n = .active b ∧
        ∃ y, (0 < i.omega ∧ dir = .ccw ∧ (approaches i b).ccw = some y ∨
            i.omega < 0 ∧ dir = .cw ∧ (approaches i b).cw = some y) ∧
          11 * y.omegaMax < 10 * |i.omega| ∧ x = ⟨n, dir, i.omega, y.omegaMax, y.distance, i.seq⟩ := by
  unfold lateEvent
  split
  · rename_i b active
    constructor
    · intro found
      split at found
      · obtain ⟨y, formed, late, rfl⟩ := lateRecord_eq_some.1 found
        exact ⟨b, .ccw, active, y, .inl ⟨‹_›, rfl, formed⟩, late, rfl⟩
      · split at found
        · obtain ⟨y, formed, late, rfl⟩ := lateRecord_eq_some.1 found
          exact ⟨b, .cw, active, y, .inr ⟨‹_›, rfl, formed⟩, late, rfl⟩
        · cases found
    · rintro ⟨c, dir, same, y, ⟨forward, rfl, formed⟩ | ⟨back, rfl, formed⟩, late, rfl⟩
      · obtain rfl : b = c := EntryView.active.inj (active.symm.trans same)
        rw [if_pos forward]
        exact lateRecord_eq_some.2 ⟨y, formed, late, rfl⟩
      · obtain rfl : b = c := EntryView.active.inj (active.symm.trans same)
        rw [if_neg (by omega), if_pos back]
        exact lateRecord_eq_some.2 ⟨y, formed, late, rfl⟩
  · rename_i other
    simp only [reduceCtorEq, false_iff]
    rintro ⟨b, _, active, _⟩
    exact other b active

/-- The SLEW_ENTRY events of an evaluation. -/
theorem entries_evalEvents (i : EvalInput) (t : EnvTable) (e : Evaluator) :
    Ascending SlewEntryStamp.entry (evalEvents i t e).entries ∧ ∀ x, x ∈ (evalEvents i t e).entries ↔
      x.entry ≤ 32 ∧ x.psi = i.psi ∧ x.omega = i.omega ∧ x.seq = i.seq ∧
      ∃ b, entryView t x.entry = .active b ∧ b.kind = .sectorStop ∧ insideSector b i.psi = true ∧
        e.inside.getD x.entry false = false := by
  have numbered (n : Nat) (x : SlewEntryStamp) (h : slewEntryEvent i t e.inside n = some x) : x.entry = n := by
    rw [(slewEntryEvent_eq_some.1 h).1]
  obtain ⟨ascending, mem⟩ := filterMap_entryNumbers numbered
  refine ⟨ascending, fun x => (mem x).trans ?_⟩
  obtain ⟨n, psi, omega, seq⟩ := x
  simp only [slewEntryEvent_eq_some, SlewEntryStamp.mk.injEq, true_and, and_assoc]

/-- The LIMIT_BREACH events of an evaluation. -/
theorem breaches_evalEvents (i : EvalInput) (t : EnvTable) (e : Evaluator) :
    Ascending LimitBreachStamp.entry (evalEvents i t e).breaches ∧ ∀ x, x ∈ (evalEvents i t e).breaches ↔
      x.entry ≤ 32 ∧ x.psi = i.psi ∧ x.seq = i.seq ∧
      ∃ b, entryView t x.entry = .active b ∧ b.kind ≠ .sectorStop ∧ x.kind = b.kind ∧
        x.distance = sat16 (limitDistance b i.points) ∧ insideSector b i.psi = true ∧ limitDistance b i.points < 0 ∧
        e.clear.getD x.entry false = true := by
  have numbered (n : Nat) (x : LimitBreachStamp) (h : breachEvent i t e.clear n = some x) : x.entry = n := by
    obtain ⟨b, rfl, -⟩ := breachEvent_eq_some.1 h
    rfl
  obtain ⟨ascending, mem⟩ := filterMap_entryNumbers numbered
  refine ⟨ascending, fun x => (mem x).trans ?_⟩
  obtain ⟨n, k, d, psi, seq⟩ := x
  simp only [breachEvent_eq_some, LimitBreachStamp.mk.injEq, true_and]
  constructor
  · rintro ⟨le, b, ⟨kinds, distance, psi, seq⟩, active, kind, isInside, below, mark⟩
    exact ⟨le, psi, seq, b, active, kind, kinds, distance, isInside, below, mark⟩
  · rintro ⟨le, psi, seq, b, active, kind, kinds, distance, isInside, below, mark⟩
    exact ⟨le, b, ⟨kinds, distance, psi, seq⟩, active, kind, isInside, below, mark⟩

/-- The LATE_BRAKING events of an evaluation. -/
theorem late_evalEvents (i : EvalInput) (t : EnvTable) (e : Evaluator) :
    Ascending LateBrakingStamp.entry (evalEvents i t e).late ∧ ∀ x, x ∈ (evalEvents i t e).late ↔
      x.entry ≤ 32 ∧ x.omega = i.omega ∧ x.seq = i.seq ∧ 11 * x.omegaMax < 10 * |i.omega| ∧
      ∃ b y, entryView t x.entry = .active b ∧ x.omegaMax = y.omegaMax ∧ x.distance = y.distance ∧
        ((0 < i.omega ∧ x.direction = .ccw ∧ (approaches i b).ccw = some y) ∨
          (i.omega < 0 ∧ x.direction = .cw ∧ (approaches i b).cw = some y)) := by
  have numbered (n : Nat) (x : LateBrakingStamp) (h : lateEvent i t n = some x) : x.entry = n := by
    obtain ⟨b, dir, -, y, -, -, rfl⟩ := lateEvent_eq_some.1 h
    rfl
  obtain ⟨ascending, mem⟩ := filterMap_entryNumbers numbered
  refine ⟨ascending, fun x => (mem x).trans ?_⟩
  obtain ⟨n, dir, omega, omegaMax, d, seq⟩ := x
  simp only [lateEvent_eq_some, LateBrakingStamp.mk.injEq, true_and]
  constructor
  · rintro ⟨le, b, _, active, y, formed, late, rfl, omega, rfl, distance, seq⟩
    exact ⟨le, omega, seq, late, b, y, active, rfl, distance, formed⟩
  · rintro ⟨le, omega, seq, late, b, y, active, rfl, distance, formed⟩
    exact ⟨le, b, dir, active, y, formed, late, rfl, omega, rfl, distance, seq⟩

/-! ## The stage (R60) -/

theorem exec_stageEvaluate_usable {s : State} {l : Latch} {p : PoseResult} {pts : Points}
    (solve : s.solver.solve = .evaluate l p) (h : UsablePose p pts) :
    exec .stageEvaluate s = .next
      { s with
        table := withFloorLimit pts s.table
        evaluator := evaluatorAfter (evalInput l p pts) (withFloorLimit pts s.table) s.evaluator
        solver := { s.solver with
          solve := .aids l p (evalEvents (evalInput l p pts) (withFloorLimit pts s.table) s.evaluator) s.aid.record
            s.aid.table } } := by
  have stage : exec .stageEvaluate s = .next (stageEvaluate l p s) := by
    change execStageEvaluate s = _
    simp only [execStageEvaluate, solve]
  rw [stage]
  simp only [stageEvaluate, usablePoints_of_usable h]

/-- Settles O20: the stage is `evaluatorAfter` and `evalEvents`, whose marks and events the lemmas above describe. -/
theorem stageEvaluateJudgesUsablePose : Obligations.StageEvaluateJudgesUsablePose := by
  intro s l p pts solve usable insideLength clearLength
  have input : evalInput l p pts =
      { points := pts, psi := p.psi, omega := p.omega
        alpha := if l.phase = .swingLoaded then (geometryFields l.geometry).alphaLoaded
          else (geometryFields l.geometry).alphaEmpty
        geometry := geometryFields l.geometry, seq := l.sample.seq } := by
    rw [evalInput, chooseAlpha_eq]
  have stage := exec_stageEvaluate_usable solve usable
  rw [withFloorLimit_eq, input] at stage
  refine ⟨_, _, _, _, stage, withFloorLimit_of_not_holding pts, fun o b plane hold => ?_, ?_, ?_, fun n le b active => ?_,
    fun n le idle => ?_, entries_evalEvents _ _ _, breaches_evalEvents _ _ _, late_evalEvents _ _ _⟩
  · exact withFloorLimit_of_holding pts plane hold
  · rw [length_marksAfter, insideLength]
  · rw [length_marksAfter, clearLength]
  · rw [getD_marksAfter _ (by omega), getD_marksAfter _ (by omega)]
    exact ⟨fun kind => marks_of_stop active kind _ _, fun kind => marks_of_limit active kind _ _⟩
  · rw [getD_marksAfter _ (by omega), getD_marksAfter _ (by omega)]
    exact marks_of_not_active idle _ _

end Sys2Proof.Proofs

end

section
/-! SUPPORT. The slew allowance (O17), the least contribution to an actuator (O18), and stage EVALUATE of a WITHHELD pose
(O21). -/

namespace Sys2Proof.Proofs

open Sys2Proof Sys2Proof.Machine Sys2Proof.Laws

/-! ## The slew allowance (R64) -/

/-- With a digit of the root for every two binary digits of `n`, the loop finds the whole root. -/
theorem isqrtLoop_eq_sqrt {fuel n : Nat} (h : n < 4 ^ fuel) : isqrtLoop fuel n = Nat.sqrt n := by
  induction fuel generalizing n with
  | zero =>
    obtain rfl : n = 0 := by simpa using h
    rfl
  | succ fuel ih =>
    have quarter : isqrtLoop fuel (n / 4) = Nat.sqrt (n / 4) := ih (by rw [pow_succ] at h; omega)
    have below := Nat.sqrt_le (n / 4)
    have above := Nat.lt_succ_sqrt (n / 4)
    simp only [isqrtLoop, quarter]
    generalize Nat.sqrt (n / 4) = r at below above
    have lower : 4 * (r * r) ≤ n := by omega
    have upper : n < 4 * ((r + 1) * (r + 1)) := by simp only [Nat.succ_eq_add_one] at above; omega
    split
    · exact Nat.eq_sqrt.2 ⟨‹_›, by linarith⟩
    · exact Nat.eq_sqrt.2 ⟨by linarith, by omega⟩

/-- The fastest slew that can still stop is the whole root of twice the deceleration times the effective distance. -/
theorem slewMax_spec {d guard alpha p : Int} (hp : 2 * alpha * effectiveDistance d guard = p) (h0 : 0 ≤ p)
    (h : p < 4 ^ 32) :
    0 ≤ slewMax d guard alpha ∧ slewMax d guard alpha * slewMax d guard alpha ≤ p ∧
      p < (slewMax d guard alpha + 1) * (slewMax d guard alpha + 1) := by
  obtain ⟨n, rfl⟩ := Int.eq_ofNat_of_zero_le h0
  have root : slewMax d guard alpha = (Nat.sqrt n : Int) := by
    rw [slewMax, hp, Int.toNat_natCast, isqrt, isqrtLoop_eq_sqrt (by exact_mod_cast h)]
  rw [root]
  exact ⟨Int.natCast_nonneg _, by exact_mod_cast Nat.sqrt_le n, by exact_mod_cast Nat.lt_succ_sqrt n⟩

theorem slewAllowance_scale_eq {d guard alpha rated : Int} (hr : 0 < rated) (h : 0 ≤ slewMax d guard alpha) :
    (slewAllowance d guard alpha rated).scale = min 1000 (1000 * slewMax d guard alpha / rated) := by
  have quotient : 0 ≤ 1000 * slewMax d guard alpha / rated := Int.ediv_nonneg (by omega) hr.le
  have clamped : (slewAllowance d guard alpha rated).scale = clamp 0 1000 (1000 * slewMax d guard alpha / rated) := rfl
  rw [clamped, clamp_eq (by decide)]
  omega

/-- Settles O17: the root is that of `slewMax_spec`, and the greatest distance and deceleration bound it. -/
theorem slewAllowanceStopsInTime : Obligations.SlewAllowanceStopsInTime := by
  intro d guard alpha rated d0 d1 g0 _ a0 a1 r0 _
  dsimp only
  have greatest : 2 * alpha * (d - guard) ≤ 2621400000 := by nlinarith
  by_cases near : d ≤ guard
  · have product : 2 * alpha * effectiveDistance d guard = 0 := by
      rw [effectiveDistance, if_neg (by omega), mul_zero]
    have none : slewMax d guard alpha = 0 := by
      obtain ⟨nonneg, below, -⟩ := slewMax_spec product le_rfl (by decide)
      nlinarith
    have scale : (slewAllowance d guard alpha rated).scale = 0 := by
      rw [slewAllowance_scale_eq (by omega) none.ge, none]
      simp
    have omegaMax : (slewAllowance d guard alpha rated).omegaMax = 0 := none
    exact ⟨fun _ => ⟨omegaMax, scale⟩, fun far => absurd near (by omega), greatest, by omega⟩
  · have effective : effectiveDistance d guard = d - guard := if_pos (by omega)
    obtain ⟨nonneg, below, above⟩ := slewMax_spec (guard := guard) (alpha := alpha) (congrArg _ effective)
      (by nlinarith) (by omega)
    have scale := slewAllowance_scale_eq (d := d) (rated := rated) (by omega) nonneg
    have quotient : 0 ≤ 1000 * slewMax d guard alpha / rated := Int.ediv_nonneg (by omega) (by omega)
    have omegaMax : (slewAllowance d guard alpha rated).omegaMax = slewMax d guard alpha := rfl
    rw [omegaMax, scale]
    exact ⟨fun no => absurd no near, fun _ => ⟨nonneg, below, above, rfl⟩, greatest, nonneg, by nlinarith, by omega,
      by omega⟩

/-! ## The least contribution (R71) -/

/-- Of the entries numbered below `m`, contributing as `c` says, `best` holds the least contribution and the
lowest-numbered entry that gives it. -/
def LeastBelow (c : Nat → Option Int) (m : Nat) : Option (Int × Nat) → Prop
  | none => ∀ n < m, c n = none
  | some (x, n) => n < m ∧ c n = some x ∧ ∀ k < m, ∀ y, c k = some y → x < y ∨ x = y ∧ n ≤ k

/-- What holds of every entry below `m`, and of `m`, holds of every entry below `m + 1`. -/
theorem lesser_leastBelow {c : Nat → Option Int} {m : Nat} {best : Option (Int × Nat)} (h : LeastBelow c m best) :
    LeastBelow c (m + 1) (lesser best m (c m)) := by
  have upTo {p : Nat → Prop} (below : ∀ k < m, p k) (last : p m) : ∀ k < m + 1, p k := fun k hk =>
    (Nat.lt_succ_iff_lt_or_eq.1 hk).elim (below k) fun e => e ▸ last
  match best, hc : c m with
  | none, none => exact upTo h hc
  | none, some x =>
    refine ⟨m.lt_succ_self, hc, upTo (fun k hk y hy => ?_) fun y hy => ?_⟩
    · exact absurd hy (by simp [h k hk])
    · obtain rfl : x = y := by simpa [hc] using hy
      exact .inr ⟨rfl, le_rfl⟩
  | some (y, n), none =>
    obtain ⟨lt, given, least⟩ := h
    exact ⟨lt.trans m.lt_succ_self, given, upTo least fun z hz => absurd hz (by simp [hc])⟩
  | some (y, n), some x =>
    obtain ⟨lt, given, least⟩ := h
    unfold lesser
    dsimp only
    split
    · refine ⟨m.lt_succ_self, hc, upTo (fun k hk z hz => ?_) fun z hz => ?_⟩
      · have := least k hk z hz
        omega
      · obtain rfl : x = z := by simpa [hc] using hz
        exact .inr ⟨rfl, le_rfl⟩
    · refine ⟨lt.trans m.lt_succ_self, given, upTo least fun z hz => ?_⟩
      obtain rfl : x = z := by simpa [hc] using hz
      omega

theorem leastContribution_spec (i : EvalInput) (t : EnvTable) (a : Actuator) :
    LeastBelow (fun n => contribution i t n a) 33 (leastContribution i t a) := by
  have fold : ∀ m, LeastBelow (fun n => contribution i t n a) m
      ((List.range m).foldl (fun best n => lesser best n (contribution i t n a)) none) := by
    intro m
    induction m with
    | zero => exact nofun
    | succ m ih =>
      rw [List.range_succ, List.foldl_append]
      exact lesser_leastBelow ih
  exact fold 33

theorem leastContribution_eq_none {i : EvalInput} {t : EnvTable} {a : Actuator}
    (h : ∀ n ≤ 32, contribution i t n a = none) : leastContribution i t a = none := by
  have spec := leastContribution_spec i t a
  cases hl : leastContribution i t a with
  | none => rfl
  | some b =>
    obtain ⟨x, n⟩ := b
    rw [hl] at spec
    obtain ⟨lt, given, -⟩ := spec
    exact absurd given (by simp [h n (by omega)])

theorem leastContribution_eq_some {i : EvalInput} {t : EnvTable} {a : Actuator} {n : Nat} {x : Int} (hn : n ≤ 32)
    (given : contribution i t n a = some x)
    (least : ∀ k ≤ 32, ∀ y, contribution i t k a = some y → x < y ∨ x = y ∧ n ≤ k) :
    leastContribution i t a = some (x, n) := by
  have spec := leastContribution_spec i t a
  cases hl : leastContribution i t a with
  | none =>
    rw [hl] at spec
    exact absurd given (by simp [spec n (by omega)])
  | some b =>
    obtain ⟨y, m⟩ := b
    rw [hl] at spec
    obtain ⟨lt, given', least'⟩ := spec
    have := least' n (by omega) x given
    have := least m (by omega) y given'
    obtain ⟨rfl, rfl⟩ : x = y ∧ n = m := by omega
    rfl

/-- FALLBACK is set exactly when a FAULTED entry binds some actuator (R71). -/
theorem usableRecord_fallback_iff (i : EvalInput) (t : EnvTable) :
    (usableRecord i t).fallback = true ↔
      ∃ a n, actGet (usableRecord i t).binding a = some n ∧ entryView t n = .faulted := by
  have bound (a : Actuator) : boundByFault t (leastContribution i t a) = true ↔
      ∃ n, (leastContribution i t a).map (fun x => x.2) = some n ∧ entryView t n = .faulted := by
    cases leastContribution i t a <;> simp [boundByFault]
  have all (a : Actuator) : a ∈ allActuators := by cases a <;> decide
  simp [usableRecord, bound, all]

/-- Settles O18: each actuator's scale and binding zone are those of `leastContribution`. -/
theorem evaluationTakesLeastContribution : Obligations.EvaluationTakesLeastContribution := by
  refine fun i t => ⟨fun a => ⟨fun none => ?_, fun n hn x given least => ?_⟩, usableRecord_fallback_iff i t⟩
  · simp [usableRecord, leastContribution_eq_none none, scaleOf]
  · simp [usableRecord, leastContribution_eq_some hn given least, scaleOf]

/-! ## Stage EVALUATE of a WITHHELD pose (R60, R69) -/

/-- Settles O21: a WITHHELD pose has no usable points, so the record is the unusable one of the latched geometry. -/
theorem stageEvaluateFallsBackWhenWithheld : Obligations.StageEvaluateFallsBackWhenWithheld := by
  intro s l p solve withheld
  have points : usablePoints p = none := by rw [usablePoints, withheld]; rfl
  refine ⟨unusableRecord s.table (geometryFields l.geometry), ?_, unusableRecord_spec _ _⟩
  change execStageEvaluate s = _
  simp only [execStageEvaluate, solve, stageEvaluate, points, noEvents]

end Sys2Proof.Proofs
end

section
/-! SUPPORT. The output sets at load completion (O7): R59, R118, R163, R186. -/

namespace Sys2Proof.Proofs

open Sys2Proof Sys2Proof.Machine Sys2Proof.Laws

theorem scheduleOnly_announceFault (s : State) (k : Nat) : ScheduleOnly s (announceFault s k) := by
  unfold announceFault
  split
  · exact (onSchedule_produceNotice _).only s
  · exact .refl s

theorem ScheduleOnly.foldl {α : Type} {f : State → α → State} (h : ∀ s a, ScheduleOnly s (f s a)) (xs : List α)
    (s : State) : ScheduleOnly s (xs.foldl f s) := by
  induction xs generalizing s with
  | nil => exact .refl s
  | cons x xs ih => exact (h s x).trans (ih _)

/-- LOAD_COMPLETION with every record examined completes the load. -/
theorem exec_loadCompletion_examined {s : State} (hp : s.part = .loading) (he : 73 ≤ s.examined) :
    ∃ m, ScheduleOnly (scheduleLoaded s) m ∧ exec .loadCompletion s = .next (finishLoad m) := by
  have size : imageOrder.length = 73 := by simp [imageOrder, allAccums, Config.zoneCount, Config.itemCount]
  have examined : loadExamined s = true := by simp [loadExamined, hp, size, he]
  refine ⟨_, ScheduleOnly.foldl scheduleOnly_announceFault (List.range 24) (scheduleLoaded s), ?_⟩
  simp only [exec, execLoadCompletion, examined, if_true, completeLoad, loadSchedule_eq, finishLoad, scheduleLoaded]

/-- Settles O7: the FAULT notices leave table, solver and output block alone; the rest of the load fills the sets. -/
theorem loadCompletionFillsOutputSets : Obligations.LoadCompletionFillsOutputSets := by
  intro s hp he _
  obtain ⟨m, only, ex⟩ := exec_loadCompletion_examined hp he
  have period : (finishLoad m).output.period = goodOr 20 s.store.image.outputPeriod :=
    congrArg Output.period only.output
  have unusable : IsUnusableRecord m.table (geometryFields m.solver.geometry) (fallbackNow m) := unusableRecord_spec _ _
  refine ⟨finishLoad m, ex, rfl, rfl, rfl, rfl, rfl, rfl, unusable, unusable, fun n hn => ?_, rfl, rfl, rfl, rfl, ?_,
    rfl, rfl, rfl⟩
  · have clear : clearMarks.getD n true = false := by
      rw [clearMarks, Config.zoneCount, List.getD_replicate _ hn]
    exact ⟨clear, clear⟩
  · rw [period]
    exact goodOr_spec _ _

end Sys2Proof.Proofs
end

section
/-! SUPPORT. Scales lie in 0 to 1000: those that the fields of a geometry record give, and those of every evaluation
(R62 to R72), for O54. -/

namespace Sys2Proof.Proofs

open Sys2Proof Sys2Proof.Machine Sys2Proof.Laws

/-! ## Scales -/

theorem isScale_zero : IsScale 0 := ⟨by decide, by decide⟩

theorem isScale_full : IsScale 1000 := ⟨by decide, by decide⟩

theorem isScale_clamp (x : Int) : IsScale (clamp 0 1000 x) := by
  rw [IsScale, clamp_eq (by decide)]
  omega

theorem areScales_full : AreScales ⟨1000, 1000, 1000, 1000, 1000, 1000⟩ := fun a => by cases a <;> exact isScale_full

/-- The working defaults lie in their range (R35). -/
theorem workingGeometry_ok : GeometryOk workingGeometry := by
  unfold GeometryOk AreScales IsScale
  exact ⟨fun a => by cases a <;> decide, by decide⟩

/-- A SET_GEOMETRY's fields are clamped to their range (R36). -/
theorem clampGeometry_ok (g : Geometry) : GeometryOk (clampGeometry g) := by
  refine ⟨fun a => ?_, isScale_clamp _⟩
  simpa only [clampGeometry, actGet_sixActs] using isScale_clamp _

/-! ## Contributions (R62 to R68) -/

theorem marginScale_isScale (distance margin : Int) : IsScale (marginScale distance margin) := by
  unfold marginScale
  split
  · exact isScale_clamp _
  · split
    · exact isScale_full
    · exact isScale_zero

theorem slewAllowance_isScale (d guard alpha rated : Int) : IsScale (slewAllowance d guard alpha rated).scale :=
  isScale_clamp _

theorem guardAllowance_isScale (i : EvalInput) (distance d : Int) : IsScale (guardAllowance i distance d).scale := by
  rw [guardAllowance_scale]
  split
  · exact isScale_zero
  · exact slewAllowance_isScale _ _ _ _

/-- Every allowance that an ACTIVE entry forms is a scale. -/
theorem approaches_areScales (i : EvalInput) (b : ZoneBody) :
    (∀ y, (approaches i b).ccw = some y → IsScale y.scale) ∧ ∀ y, (approaches i b).cw = some y → IsScale y.scale := by
  unfold approaches
  split
  · unfold stopApproaches
    split
    · exact ⟨nofun, nofun⟩
    · constructor <;> rintro _ ⟨⟩ <;> exact slewAllowance_isScale _ _ _ _
  · unfold guardApproaches
    split
    · exact ⟨nofun, nofun⟩
    · constructor <;>
        · intro y hy
          obtain ⟨-, ⟨⟩⟩ := Option.ite_none_right_eq_some.1 hy
          exact guardAllowance_isScale _ _ _

theorem approachScale_isScale {i : EvalInput} {b : ZoneBody} {a : Actuator} {x : Int}
    (h : approachScale (approaches i b) a = some x) : IsScale x := by
  obtain ⟨ccw, cw⟩ := approaches_areScales i b
  unfold approachScale at h
  split at h
  · obtain ⟨y, hy, rfl⟩ := Option.map_eq_some_iff.1 h
    exact ccw y hy
  · obtain ⟨y, hy, rfl⟩ := Option.map_eq_some_iff.1 h
    exact cw y hy
  · cases h

theorem escapeScale_isScale {i : EvalInput} (hg : GeometryOk i.geometry) {b : ZoneBody} {a : Actuator} {x : Int}
    (h : escapeScale i b a = some x) : IsScale x := by
  obtain ⟨-, escape⟩ := hg
  have either {c : Prop} [Decidable c] (k : (if c then some i.geometry.escape else some 0) = some x) : IsScale x := by
    split at k <;> cases k
    · exact escape
    · exact isScale_zero
  unfold escapeScale at h
  split at h
  · exact either h
  · exact either h
  · cases h

/-- Every contribution is a scale, when the geometry's fields are. -/
theorem contribution_isScale {i : EvalInput} (hg : GeometryOk i.geometry) {t : EnvTable} {n : Nat} {a : Actuator}
    {x : Int} (h : contribution i t n a = some x) : IsScale x := by
  unfold contribution at h
  split at h
  · cases h
  · unfold activeContribution at h
    split at h
    · split at h
      · exact escapeScale_isScale hg h
      · obtain ⟨-, ⟨⟩⟩ := Option.ite_none_right_eq_some.1 h
        exact marginScale_isScale _ _
    · exact approachScale_isScale h
  · obtain ⟨-, ⟨⟩⟩ := Option.ite_none_right_eq_some.1 h
    exact hg.1 a

/-! ## Records (R69, R71) -/

theorem usableRecord_areScales {i : EvalInput} (hg : GeometryOk i.geometry) (t : EnvTable) :
    AreScales (usableRecord i t).scales := fun a => by
  have spec := leastContribution_spec i t a
  simp only [usableRecord, actGet_sixActs]
  cases hl : leastContribution i t a with
  | none => exact isScale_full
  | some b =>
    rw [hl] at spec
    obtain ⟨-, given, -⟩ := spec
    exact contribution_isScale hg given

theorem unusableRecord_areScales (t : EnvTable) {g : Geometry} (hg : GeometryOk g) :
    AreScales (unusableRecord t g).scales := fun a => by
  simp only [unusableRecord, actGet_sixActs]
  split
  · exact hg.1 a
  · exact isScale_full

end Sys2Proof.Proofs
end

section
/-! SUPPORT. The invariant of O54, and one lemma for each operation that the meanings share, which keeps it. -/

namespace Sys2Proof.Proofs

open Sys2Proof Sys2Proof.Machine Sys2Proof.Laws

/-! ## The invariant -/

/-- The geometry record that an edit carries, if any, has its scales in range. -/
def EditOk (e : Edit) : Prop := ∀ g, editGeometry e = some g → GeometryOk g

theorem geometryOk_of_none {x : Option Geometry} (h : x = none) : ∀ g, x = some g → GeometryOk g := by
  rintro g rfl
  cases h

/-- `OutputInv` with its parts named. -/
structure InRange (s : State) : Prop where
  geometry : GeometryOk (geometryFields s.solver.geometry)
  latched : ∀ g, latchedGeometry s.solver.solve = some g → GeometryOk g
  queued : ∀ e ∈ s.table.queue.map QueuedEdit.edit, EditOk e
  stored : ∀ g, storedGeometry s.store.image.geometry = some g → GeometryOk g
  snapped : ∀ r ∈ todoOf s.store.save, ∀ g, snapGeometry r = some g → GeometryOk g
  record : AreScales s.evaluator.record.scales
  pending : SetInv s.output.pending
  active : SetInv s.output.active

theorem outputInv_iff (s : State) : OutputInv s ↔ InRange s := by
  have edits : (∀ e ∈ s.table.queue.map QueuedEdit.edit, EditOk e) ↔
      ∀ q ∈ s.table.queue, ∀ g, editGeometry q.edit = some g → GeometryOk g := List.forall_mem_map
  constructor
  · rintro ⟨⟨geometry, latched, queued, stored, snapped⟩, record, pending, active⟩
    exact ⟨geometry, latched, edits.2 queued, stored, snapped, record, pending, active⟩
  · rintro ⟨geometry, latched, queued, stored, snapped, record, pending, active⟩
    exact ⟨⟨geometry, latched, edits.1 queued, stored, snapped⟩, record, pending, active⟩

/-- What the invariant reads of a state. -/
def feeds (s : State) :
    (GeometryRecord × Solve × List Edit) × (Stored Geometry × Option Save) × EvalRecord × OutputSet × OutputSet :=
  ((s.solver.geometry, s.solver.solve, s.table.queue.map QueuedEdit.edit), (s.store.image.geometry, s.store.save),
    s.evaluator.record, s.output.pending, s.output.active)

theorem InRange.of_feeds {s t : State} (h : InRange s) (hf : feeds t = feeds s := by simp [feeds]) : InRange t := by
  simp only [feeds, Prod.mk.injEq] at hf
  obtain ⟨⟨geometry, solve, queue⟩, ⟨image, save⟩, record, pending, active⟩ := hf
  constructor
  · exact geometry ▸ h.geometry
  · exact solve ▸ h.latched
  · exact queue ▸ h.queued
  · exact image ▸ h.stored
  · exact save ▸ h.snapped
  · exact record ▸ h.record
  · exact pending ▸ h.pending
  · exact active ▸ h.active

section
variable {s : State}

/-! ## Ports and answers -/

theorem inRange_setPort {l : Link} {p : Port} (h : InRange s) : InRange (setPort l p s) := h.of_feeds

theorem inRange_sendNotice {l : Link} {b : TxBody} (h : InRange s) : InRange (sendNotice l b s) := h.of_feeds

theorem inRange_sendPeriodic {l : Link} {b : TxBody} (h : InRange s) : InRange (sendPeriodic l b s) := h.of_feeds

theorem inRange_reply {l : Link} {r : Request} {x : Result} {e : Echo} (h : InRange s) : InRange (reply l r x e s) :=
  h.of_feeds

/-- A taken request keeps the invariant when its owner does. -/
theorem inRange_takeRequest {me : Instr} {l : Link} {serve : Payload → State → State}
    (hs : ∀ d t, InRange t → InRange (serve d t)) (h : InRange s) : InRange (takeRequest me l serve s) := by
  have taken : InRange (takeHead l s) := inRange_setPort h
  obtain k | ⟨b, k⟩ | ⟨f, -, k⟩ := takeRequest_cases me l serve s <;> rw [k]
  · exact h
  · exact inRange_setPort taken
  · exact hs _ _ taken

/-! ## The store -/

theorem snapGeometry_snapshot {r : RecordId} {g : Geometry} (h : snapGeometry (snapshot s r) = some g) :
    g = geometryFields s.solver.geometry := by
  cases r <;> cases h
  rfl

/-- A save takes the geometry in force into its snapshot (R188). -/
theorem inRange_startSave (h : InRange s) : InRange (startSave s) :=
  { h with
    snapped := fun r hr g hg => by
      obtain ⟨k, -, rfl⟩ := List.mem_map.1 hr
      rw [snapGeometry_snapshot hg]
      exact h.geometry }

theorem inRange_triggerSave (h : InRange s) : InRange (triggerSave s) := by
  obtain ⟨_, k⟩ | ⟨v, _, ⟨_, k⟩ | ⟨_, k⟩⟩ := triggerSave_cases s <;> rw [k]
  · exact inRange_startSave h
  · exact h
  · exact h.of_feeds rfl

theorem inRange_markOnly {r : RecordId} (h : InRange s) : InRange (markOnly r s) := h.of_feeds rfl

theorem inRange_markDirty {r : RecordId} (h : InRange s) : InRange (markDirty r s) :=
  inRange_triggerSave (inRange_markOnly h)

/-- A record written into the image holds the geometry that the save snapshotted. -/
theorem storedGeometry_putRecord {ok : Bool} {r : SnapRecord} {m : Image} {g : Geometry}
    (h : storedGeometry (putRecord ok r m).geometry = some g) :
    snapGeometry r = some g ∨ storedGeometry m.geometry = some g := by
  cases r with
  | geometry k =>
    cases ok with
    | true => exact .inl h
    | false => cases h
  | _ => exact .inr h

/-! ## The ladder -/

theorem formNext_range (L : Ladder) : formNext L = 0 ∨ IsRpm (formNext L) := by
  unfold formNext
  split
  · exact .inr (boundRpm_range L _)
  · exact .inl rfl

theorem inRange_retarget {L : Ladder} (h : InRange s) : InRange (retarget L s) :=
  { h with pending := ⟨h.pending.1, formTarget_range L, formNext_range L⟩ }

theorem inRange_ladderEvent {L : Ladder} {drops : List Drop} (h : InRange s) : InRange (ladderEvent L drops s) := by
  obtain ⟨k, -⟩ := ladderEvent_spec L drops s
  rw [k]
  exact (inRange_retarget h).of_feeds rfl

theorem inRange_syncService (h : InRange s) : InRange (syncService s) := by
  obtain k | k := syncService_cases s <;> rw [k]
  · exact h
  · exact inRange_retarget h

theorem inRange_elapse {ms : Nat} (h : InRange s) : InRange (elapse ms s) := h.of_feeds rfl

/-! ## The ring and the schedule -/

theorem inRange_releaseFrom {before : Nat} (h : InRange s) : InRange (releaseFrom before s) := by
  obtain ⟨⟨slots, items, k⟩, -⟩ := foldl_releasePosition (releasedPositions s.ring.put before (heldCount s.ring)) s
  rw [releaseFrom, k]
  exact h.of_feeds rfl

theorem inRange_setReader {r : Reader} {x : ReaderState} (h : InRange s) :
    InRange { s with ring := setReader r x s.ring } := h.of_feeds rfl

theorem inRange_produceNotice {n : Notice} (h : InRange s) : InRange (produceNotice n s) := by
  by_cases full : s.ring.service.unread < 32
  · have room : InRange (if 32 ≤ s.ring.cab.unread then dropCab s else s) := by
      split
      · exact inRange_releaseFrom (h.of_feeds rfl)
      · exact h
    rw [produceNotice_written n s full]
    exact room.of_feeds
  · rw [produceNotice_lost n s (by omega)]
    exact h.of_feeds rfl

theorem inRange_changeItem {k : Nat} {f : Item → Item} (h : InRange s) :
    InRange { s with items := changeAt s.items k f } := h.of_feeds rfl

theorem inRange_riseItem {k : Nat} {f : ItemFields} {t : ItemState} {basis : Nat} (h : InRange s) :
    InRange (riseItem k f t basis s) := by
  unfold riseItem
  dsimp only
  split
  · exact inRange_markDirty (inRange_produceNotice (inRange_changeItem h))
  · exact inRange_produceNotice (inRange_changeItem h)

theorem inRange_repeatItem {k : Nat} {i : Item} {f : ItemFields} {basis : Nat} (h : InRange s) :
    InRange (repeatItem k i f basis s) := by
  unfold repeatItem
  split
  · split
    · exact inRange_produceNotice (inRange_changeItem h)
    · exact h
  · exact h

theorem inRange_reexamineItem {a : Accum} {basis k : Nat} (h : InRange s) : InRange (reexamineItem a basis s k) := by
  rw [reexamineItem_eq]
  unfold reexamineAs
  split
  · split
    · split
      · split
        · exact inRange_riseItem h
        · exact inRange_repeatItem h
      · exact h
    · exact h
  · exact h

theorem inRange_handOnBasis {a : Accum} (h : InRange s) : InRange (handOnBasis s a) := by
  unfold handOnBasis
  split
  · exact h
  · exact foldl_keeps (fun _ _ k => inRange_reexamineItem k) _ (h.of_feeds rfl : InRange (recordHanded _ _ s))

theorem inRange_announceFault {k : Nat} (h : InRange s) : InRange (announceFault s k) := by
  unfold announceFault
  split
  · exact inRange_produceNotice h
  · exact h

/-! ## The evaluator and the output set -/

/-- The rewrite of R77 writes the fallbacks of the geometry in force. -/
theorem inRange_editRewrite (h : InRange s) : InRange (editRewrite s) := by
  obtain ⟨k, -⟩ | ⟨k, -⟩ := editRewrite_cases s <;> rw [k]
  · exact h
  · have fallen : AreScales (fallbackNow s).scales := unusableRecord_areScales _ h.geometry
    exact { h with record := fallen, pending := ⟨fallen, h.pending.2⟩ }

/-- Sample loss writes them too (R70). -/
theorem inRange_sampleLoss {limit : Nat} (h : InRange s) : InRange (sampleLoss limit s) := by
  have fallen : AreScales (fallbackNow s).scales := unusableRecord_areScales _ h.geometry
  have lost : InRange (lostState limit s) := { h with record := fallen, pending := ⟨fallen, h.pending.2⟩ }
  exact inRange_ladderEvent lost

theorem inRange_transferOutput (h : InRange s) : InRange (transferOutput s) := by
  unfold transferOutput
  exact inRange_sendPeriodic { h with active := h.pending }

theorem inRange_sendCabView (h : InRange s) : InRange (sendCabView s) := by
  unfold sendCabView
  exact inRange_sendPeriodic (h.of_feeds rfl)

/-! ## Solves -/

/-- A solve latches the geometry in force (R8). -/
theorem inRange_beginSolve {x : Sample} (h : InRange s) : InRange (beginSolve x s) :=
  { h with latched := fun _ hg => Option.some.inj hg ▸ h.geometry }

theorem inRange_nextSolve (h : InRange s) : InRange (nextSolve s) := by
  unfold nextSolve
  split
  · exact inRange_beginSolve (h.of_feeds rfl)
  · exact { h with latched := geometryOk_of_none rfl }

theorem inRange_intakeSample {x : Sample} (h : InRange s) : InRange (intakeSample x s) := by
  unfold intakeSample takeSample
  dsimp only
  split
  · exact h
  · split
    · exact inRange_beginSolve (h.of_feeds rfl)
    · exact h.of_feeds rfl

theorem inRange_performFlag {l : Link} {w : WaitingFlag} (h : InRange s) : InRange (performFlag l s w) := by
  rw [performFlag_spec]
  exact h.of_feeds rfl

theorem inRange_stagePose {l : Latch} (h : InRange s) (hs : s.solver.solve = .pose l) : InRange (stagePose l s) :=
  { h with latched := fun g hg => h.latched g (hs ▸ hg) }

/-- An evaluation reads the latched geometry (R60). -/
theorem inRange_stageEvaluate {l : Latch} {p : PoseResult} (h : InRange s) (hs : s.solver.solve = .evaluate l p) :
    InRange (stageEvaluate l p s) := by
  have latched : GeometryOk (geometryFields l.geometry) := h.latched _ (hs ▸ rfl)
  unfold stageEvaluate
  split
  · rename_i pts _
    have scales := usableRecord_areScales (i := evalInput l p pts) latched (withFloorLimit pts s.table)
    rw [withFloorLimit_eq] at scales ⊢
    exact { h with latched := geometryOk_of_none rfl, record := scales }
  · exact { h with latched := geometryOk_of_none rfl, record := unusableRecord_areScales _ latched }

/-! ## Edits -/

theorem inRange_acceptZone {n : Nat} {act : ZoneAction} {z : Zone} (h : InRange s) :
    InRange (acceptZone n act z s) := by
  have marked : InRange (if clearsMarks act then clearEntryMarks n (putZone n z s) else putZone n z s) := by
    split <;> exact h.of_feeds rfl
  refine inRange_editRewrite ?_
  split
  · exact inRange_markDirty marked
  · exact marked

theorem inRange_acceptPlane {p : GradePlane} (h : InRange s) : InRange (acceptPlane p s) := by
  have marked : InRange (clearEntryMarks Config.zoneCount (putPlane p s)) := h.of_feeds rfl
  refine inRange_editRewrite ?_
  split
  · exact inRange_markDirty marked
  · exact marked

theorem inRange_applyGeometry {g : Geometry} (h : InRange s) (hg : GeometryOk g) : InRange (applyGeometry g s) :=
  have taken : InRange
      { s with solver := { s.solver with geometry := .present g, good := saturateGood g s.solver.good } } :=
    { h with geometry := hg }
  inRange_editRewrite (inRange_markDirty taken)

theorem inRange_applyEdit {l : Link} {e : Edit} (h : InRange s) (he : EditOk e) : InRange (applyEdit l e s).2 := by
  cases e with
  | zone n act =>
    obtain ⟨-, -, k⟩ | ⟨-, ⟨r, -, -, k⟩ | ⟨z, -, k⟩⟩ := applyZone_cases l n act s <;> simp only [applyEdit, k]
    · exact h
    · exact h
    · exact inRange_acceptZone h
  | grade act =>
    obtain ⟨-, -, k⟩ | ⟨-, ⟨-, -, k⟩ | ⟨-, -, k⟩ | ⟨b, -, k⟩⟩ := applyPlane_cases l act s <;> simp only [applyEdit, k]
    · exact h
    · exact h
    · exact inRange_acceptPlane h
    · exact inRange_acceptPlane h
  | geometry g => exact inRange_applyGeometry h (he g rfl)

theorem inRange_performEdit {q : QueuedEdit} (h : InRange s) (hq : EditOk q.edit) : InRange (performEdit s q) :=
  inRange_setPort (inRange_applyEdit h hq)

/-- Edits applied one after another. -/
theorem inRange_performEdits {qs : List QueuedEdit} (h : InRange s) (hq : ∀ e ∈ qs.map QueuedEdit.edit, EditOk e) :
    InRange (qs.foldl performEdit s) := by
  induction qs generalizing s with
  | nil => exact h
  | cons q qs ih =>
    obtain ⟨first, rest⟩ := List.forall_mem_cons.1 hq
    exact ih (inRange_performEdit h first) rest

/-- The edit queue replaced by edits in range. -/
theorem InRange.withQueue (h : InRange s) {qs : List QueuedEdit} (hq : ∀ e ∈ qs.map QueuedEdit.edit, EditOk e) :
    InRange { s with table := { s.table with queue := qs } } := { h with queued := hq }

theorem inRange_takeEdit {l : Link} {e : Edit} (h : InRange s) (he : EditOk e) : InRange (takeEdit l e s) := by
  unfold takeEdit
  split
  · exact inRange_performEdit h he
  · split
    · refine h.withQueue fun x hx => ?_
      rw [List.map_append, List.mem_append] at hx
      obtain hx | hx := hx
      · exact h.queued x hx
      · obtain rfl := List.mem_singleton.1 hx
        exact he
    · exact inRange_reply h

end

end Sys2Proof.Proofs
end

section
/-! SUPPORT. Every request keeps the invariant of O54. -/

namespace Sys2Proof.Proofs

open Sys2Proof Sys2Proof.Machine Sys2Proof.Laws

section
variable {s : State} {l : Link} {d : Payload}

/-! ## The requests at the envelope table and the solver -/

theorem inRange_zoneEdit (h : InRange s) : InRange (serveZoneEdit l d s) := by
  unfold serveZoneEdit
  split
  · exact inRange_takeEdit h (geometryOk_of_none rfl)
  · exact inRange_reply h

theorem inRange_setGrade (h : InRange s) : InRange (serveSetGrade l d s) := by
  unfold serveSetGrade
  split
  · split
    · exact inRange_takeEdit h (geometryOk_of_none rfl)
    · exact inRange_reply h
  · exact inRange_reply h

theorem inRange_setGeometry (h : InRange s) : InRange (serveSetGeometry l d s) := by
  unfold serveSetGeometry
  split
  · split
    · exact inRange_reply h
    · refine inRange_takeEdit h fun g hg => ?_
      obtain rfl := Option.some.inj hg
      exact clampGeometry_ok _
  · exact inRange_reply h

theorem inRange_setSolver (h : InRange s) : InRange (serveSetSolver l d s) := by
  unfold serveSetSolver
  split
  · split
    · exact inRange_reply (inRange_markDirty (h.of_feeds rfl))
    · exact inRange_reply h
  · exact inRange_reply h

theorem inRange_takeFlag {r : Request} {q : FlagRequest} (h : InRange s) : InRange (takeFlag l r q d s) := by
  unfold takeFlag queueFlag
  split
  · exact inRange_performFlag h
  · split
    · exact h.of_feeds rfl
    · exact inRange_reply h

theorem inRange_clearFlags (h : InRange s) : InRange (serveClearFlags l d s) := by
  unfold serveClearFlags
  split
  · split
    · exact inRange_reply h
    · exact inRange_takeFlag h
  · exact inRange_reply h

/-! ## The requests at the ladder -/

theorem inRange_servePlace {r : Request} {src : Source} {rpm : Int} {duration wait : Option Nat} (h : InRange s) :
    InRange (servePlace l r src rpm duration wait s) := inRange_reply (inRange_ladderEvent h)

theorem inRange_serveWithdraw {r : Request} {src : Source} (h : InRange s) : InRange (serveWithdraw l r src s) := by
  unfold serveWithdraw
  split
  · exact inRange_reply h
  · exact inRange_reply (inRange_ladderEvent h)

theorem inRange_setMode (h : InRange s) : InRange (serveSetMode l d s) := by
  unfold serveSetMode
  split
  · split
    · exact inRange_servePlace h
    · exact inRange_serveWithdraw h
  · exact inRange_reply h

theorem inRange_touchIdle (h : InRange s) : InRange (serveTouchIdle l d s) := by
  unfold serveTouchIdle
  split
  · exact inRange_servePlace h
  · exact inRange_serveWithdraw h
  · exact inRange_reply h

theorem inRange_regen (h : InRange s) : InRange (serveRegen l d s) := by
  unfold serveRegen
  split
  · exact inRange_servePlace h
  · exact inRange_serveWithdraw h
  · exact inRange_reply h

theorem inRange_test (h : InRange s) : InRange (serveTest l d s) := by
  unfold serveTest
  split
  · split
    · exact inRange_reply h
    · exact inRange_servePlace h
  · exact inRange_servePlace h
  · exact inRange_serveWithdraw h
  · exact inRange_serveWithdraw h
  · exact inRange_reply h

theorem inRange_setLadder (h : InRange s) : InRange (serveSetLadder l d s) := by
  unfold serveSetLadder
  split
  · split
    · exact inRange_reply (inRange_markDirty (inRange_ladderEvent h))
    · exact inRange_reply h
  · exact inRange_reply h

theorem inRange_setEconomy (h : InRange s) : InRange (serveSetEconomy l d s) := by
  unfold serveSetEconomy
  split
  · exact inRange_reply (inRange_markDirty (inRange_retarget h))
  · exact inRange_reply h

/-! ## The requests at the schedule, the ring and the accumulators -/

theorem inRange_ack (h : InRange s) : InRange (serveAck l d s) := by
  have acked (k : Nat) (f : ItemFields) : InRange (serveAck.serveAckOn l s k f) := by
    unfold serveAck.serveAckOn
    split
    · exact inRange_reply h
    · exact inRange_reply (inRange_markDirty (inRange_changeItem h))
  unfold serveAck
  split
  · split
    · exact inRange_reply h
    · split
      · exact acked _ _
      · exact acked _ _
      · exact acked _ _
      · exact inRange_reply h
  · exact inRange_reply h

theorem inRange_serviceDone (h : InRange s) : InRange (serveServiceDone l d s) := by
  unfold serveServiceDone
  split
  · split
    · exact inRange_reply h
    · split
      · split
        · exact inRange_reply (inRange_markDirty (inRange_produceNotice (inRange_syncService (inRange_changeItem h))))
        · exact inRange_reply h
      · exact inRange_reply h
  · exact inRange_reply h

theorem inRange_itemDefine (h : InRange s) : InRange (serveItemDefine l d s) := by
  unfold serveItemDefine
  split
  · split
    · exact inRange_reply h
    · split
      · exact inRange_reply (inRange_markDirty (inRange_changeItem h))
      · exact inRange_reply h
  · exact inRange_reply h

theorem inRange_itemRetire (h : InRange s) : InRange (serveItemRetire l d s) := by
  unfold serveItemRetire
  split
  · split
    · exact inRange_reply h
    · split
      · exact inRange_reply h
      · exact inRange_reply h
      · exact inRange_sendNotice (inRange_reply (inRange_markDirty (inRange_syncService (inRange_changeItem h))))
      · exact inRange_reply (inRange_markDirty (inRange_syncService (inRange_changeItem h)))
  · exact inRange_reply h

theorem inRange_ringAdvance (h : InRange s) : InRange (serveRingAdvance l d s) := by
  unfold serveRingAdvance
  split
  · dsimp only
    split
    · exact inRange_reply (inRange_setReader (inRange_releaseFrom (inRange_setReader h)))
    · exact inRange_reply h
  · exact inRange_reply h

theorem inRange_ringClearLost (h : InRange s) : InRange (serveRingClearLost l d s) := by
  unfold serveRingClearLost
  split
  · dsimp only
    split
    · exact inRange_reply (inRange_markDirty (inRange_setReader h))
    · exact inRange_reply (inRange_setReader h)
  · exact inRange_reply h

theorem inRange_accumSet (h : InRange s) : InRange (serveAccumSet l d s) := by
  unfold serveAccumSet
  split
  · dsimp only
    split
    · exact inRange_reply h
    · exact inRange_reply (inRange_triggerSave (inRange_syncService (inRange_handOnBasis (h.of_feeds rfl))))
  · exact inRange_reply (inRange_markDirty (h.of_feeds rfl))
  · exact inRange_reply h

/-! ## The other requests -/

theorem inRange_setAids (h : InRange s) : InRange (serveSetAids l d s) := by
  unfold serveSetAids
  split
  · split
    · exact inRange_reply (inRange_markDirty (h.of_feeds rfl))
    · exact inRange_reply h
  · split
    · exact inRange_reply (inRange_markDirty (h.of_feeds rfl))
    · exact inRange_reply h
  · exact inRange_reply h

theorem inRange_setOutputPeriod (h : InRange s) : InRange (serveSetOutputPeriod l d s) := by
  unfold serveSetOutputPeriod
  split
  · exact inRange_reply (inRange_markDirty (h.of_feeds rfl))
  · exact inRange_reply h

theorem inRange_stampRead (h : InRange s) : InRange (serveStampRead l d s) := by
  unfold serveStampRead
  split
  · exact inRange_reply (h.of_feeds rfl)
  · exact inRange_reply h

theorem inRange_keyOff (h : InRange s) : InRange (serveKeyOff l d s) :=
  inRange_reply (inRange_triggerSave (h.of_feeds rfl))

theorem inRange_acceptRestart {n : Option NodesRecord} (h : InRange s) : InRange (acceptRestart l n s) := by
  have placed : InRange (placeNodes n s) := by
    unfold placeNodes
    split
    · exact h.of_feeds rfl
    · exact h
  exact inRange_reply (inRange_triggerSave (placed.of_feeds rfl))

theorem inRange_restart (h : InRange s) : InRange (serveRestart l d s) := by
  unfold serveRestart
  split
  · split
    · exact inRange_reply h
    · exact inRange_acceptRestart h
  · exact inRange_acceptRestart h
  · exact inRange_reply h

/-- A request that reports a port's receive overrun (R168, R185). -/
theorem inRange_reported {r : Request} {x : Result} {e : Echo} (h : InRange s) :
    InRange (reply l r x e (clearOverrun l s)) := inRange_reply (inRange_setPort h)

end

end Sys2Proof.Proofs
end

section
/-! SUPPORT. Every step keeps the scales and engine speeds of both output sets in their ranges (O54). -/

namespace Sys2Proof.Proofs

open Sys2Proof Sys2Proof.Machine Sys2Proof.Laws

section
variable {s : State}

/-! ## The completion of a solve -/

/-- The hand-offs of R11. -/
theorem inRange_handOffs {o : CompletionOrder} {l : Latch} {p : PoseResult} {e : EvalResult} {a : AidsResult}
    (h : InRange s) : InRange (handOffs o l p e a s) := by
  have written : InRange (writeEvaluation l p (publishPose l p a s)) := { h with pending := ⟨h.record, h.pending.2⟩ }
  have between : InRange (expiryBetween o (writeEvaluation l p (publishPose l p a s))) := by
    unfold expiryBetween
    split
    · exact inRange_transferOutput written
    · exact written
  have duty {t : State} (k : InRange t) : InRange (dutyHandoff (dutyOf l p a) t) :=
    inRange_syncService (foldl_keeps (fun _ _ => inRange_handOnBasis) allAccums (k.of_feeds rfl))
  have handed : InRange (handOff o l p a (expiryBetween o (writeEvaluation l p (publishPose l p a s)))) := by
    unfold handOff
    split
    · exact duty (inRange_ladderEvent between)
    · exact inRange_ladderEvent (duty between)
  unfold handOffs enterRunning
  split <;> exact handed.of_feeds rfl

/-- Step 1 of R12. -/
theorem inRange_serveFlags (h : InRange s) : InRange (serveFlags s) := by
  rw [serveFlags_spec]
  exact h.of_feeds rfl

theorem inRange_editStep {x : EditStep} (h : InRange s) : InRange (editStep s x) := by
  cases x with
  | apply =>
    cases hq : s.table.queue with
    | nil =>
      rw [editStep_apply, applyHead_nil hq]
      exact h
    | cons q rest =>
      obtain ⟨first, others⟩ := List.forall_mem_cons.1 (hq ▸ h.queued)
      rw [editStep_apply, applyHead_cons hq]
      exact inRange_performEdit (h.withQueue others) first
  | take l =>
    rw [editStep_take]
    obtain k | ⟨f, serve, -, k, ⟨-, rfl⟩ | ⟨-, rfl⟩ | ⟨-, rfl⟩⟩ := takeEditFrame_cases l s <;> rw [k]
    · exact h
    · exact inRange_takeRequest (fun _ _ => inRange_zoneEdit) h
    · exact inRange_takeRequest (fun _ _ => inRange_setGrade) h
    · exact inRange_takeRequest (fun _ _ => inRange_setGeometry) h

/-- Step 2 of R12. -/
theorem inRange_applyEdits {xs : List EditStep} (h : InRange s) : InRange (applyEdits xs s) := by
  have stepped : InRange (xs.foldl editStep s) := foldl_keeps (fun _ _ => inRange_editStep) xs h
  exact inRange_performEdits (stepped.withQueue fun _ hx => absurd hx List.not_mem_nil) stepped.queued

theorem inRange_completeSolve {o : CompletionOrder} {l : Latch} {p : PoseResult} {e : EvalResult} {a : AidsResult}
    (h : InRange s) : InRange (completeSolve o l p e a s) :=
  inRange_nextSolve (inRange_applyEdits (inRange_serveFlags (inRange_handOffs h)))

/-! ## Saves, resets and the image load -/

/-- A record written and read back (R188). -/
theorem inRange_writeBack {mismatch : Bool} {v : Save} {r : SnapRecord} {rest : List SnapRecord} (h : InRange s)
    (hv : s.store.save = some v) (ht : v.todo = r :: rest) : InRange (writeBack mismatch v r s) := by
  have todo : todoOf s.store.save = r :: rest := by rw [hv]; exact ht
  have written : InRange { s with store := { s.store with
      image := putRecord (!mismatch) r s.store.image, save := some (saveStep mismatch v) } } :=
    { h with
      stored := fun g hg => (storedGeometry_putRecord hg).elim (h.snapped r (todo ▸ List.mem_cons_self) g) (h.stored g)
      snapped := fun x hx => h.snapped x (todo ▸ List.mem_cons_of_mem r (ht ▸ hx : x ∈ (r :: rest).tail)) }
  unfold writeBack spoilRecord
  dsimp only
  split
  · split
    · exact written.of_feeds rfl
    · exact written.of_feeds rfl
  · exact written

/-- A reset part, over an image whose geometry is in range. -/
theorem inRange_loadingState {image : Image} {pending : List Instr}
    (h : ∀ g, storedGeometry image.geometry = some g → GeometryOk g) : InRange (loadingState image pending) :=
  have set : SetInv resetSet := ⟨areScales_full, by unfold IsRpm; decide, .inl rfl⟩
  { geometry := workingGeometry_ok
    latched := geometryOk_of_none rfl
    queued := fun _ hx => absurd hx List.not_mem_nil
    stored := h
    snapped := fun _ hx => absurd hx List.not_mem_nil
    record := areScales_full
    pending := set
    active := set }

/-- A reset cuts off the writing of one record at most, which is one that the save snapshotted (R188). -/
theorem inRange_enterLoading {m : WriteMoment} (h : InRange s) : InRange (enterLoading m s) := by
  have next {r : SnapRecord} (hr : nextWrite s.store = some r) : r ∈ todoOf s.store.save := by
    unfold nextWrite at hr
    split at hr
    · rename_i v hv
      rw [hv]
      exact List.mem_of_head? hr
    · cases hr
  refine inRange_loadingState fun g hg => ?_
  unfold abandonedImage at hg
  split at hg
  · exact (storedGeometry_putRecord hg).elim (h.snapped _ (next ‹_›) g) (h.stored g)
  · exact (storedGeometry_putRecord hg).elim (h.snapped _ (next ‹_›) g) (h.stored g)
  · exact h.stored g hg

theorem loadGeometry_ok {x : Stored Geometry} (h : ∀ g, storedGeometry x = some g → GeometryOk g) :
    GeometryOk (geometryFields (loadGeometry x)) := by
  cases x with
  | good g => exact h g rfl
  | missing => exact workingGeometry_ok
  | bad => exact workingGeometry_ok

/-- Step 1 of R186 puts the stored geometry in force. -/
theorem inRange_loadRecords (h : InRange s) : InRange (loadRecords s) := { h with geometry := loadGeometry_ok h.stored }

/-- Step 2 of R186. -/
theorem inRange_loadSchedule (h : InRange s) : InRange (loadSchedule s) := by
  have announced {t : State} (k : InRange t) : InRange ((List.range 24).foldl announceFault t) :=
    foldl_keeps (fun _ _ => inRange_announceFault) _ k
  have requested {t : State} {b : Bool} (k : InRange t) : InRange { t with ladder := { t.ladder with service := b } } :=
    k.of_feeds rfl
  rw [loadSchedule_eq]
  exact requested (announced (h.of_feeds rfl : InRange (withSchedule s)))

/-- Step 3 of R186 takes the fallbacks of the geometry in force. -/
theorem inRange_loadEvaluator (h : InRange s) : InRange (loadEvaluator s) :=
  { h with record := unusableRecord_areScales _ h.geometry }

/-- Steps 4 and 5 of R186 form both output sets from evaluator and ladder. -/
theorem inRange_enterWaiting (h : InRange s) : InRange (enterWaiting (loadOutput (loadLadder s))) :=
  have set : SetInv (loadedSet (loadLadder s)) := ⟨h.record, formTarget_range _, formNext_range _⟩
  { h with pending := set, active := set }

theorem inRange_completeLoad (h : InRange s) : InRange (completeLoad s) :=
  inRange_enterWaiting (inRange_loadEvaluator (inRange_loadSchedule (inRange_loadRecords h)))

/-! ## Every command -/

/-- The command answers a state that keeps the invariant. -/
def AnswersInRange (c : Instr) (s : State) : Prop := ∃ t, exec c s = .next t ∧ InRange t

theorem answersInRange_loadRecordExamined (h : InRange s) : AnswersInRange .loadRecordExamined s := by
  have examined (r : RecordId) : InRange (examineRecord r s) := by
    unfold examineRecord
    dsimp only
    split <;> split <;> exact h.of_feeds rfl
  simp only [AnswersInRange, exec, execLoadRecordExamined]
  split
  · exact ⟨_, rfl, examined _⟩
  · exact ⟨s, rfl, h⟩

theorem answersInRange_loadCompletion (h : InRange s) : AnswersInRange .loadCompletion s := by
  simp only [AnswersInRange, exec, execLoadCompletion]
  split
  · exact ⟨_, rfl, inRange_completeLoad h⟩
  · exact ⟨s, rfl, h⟩

theorem answersInRange_frameReceived {l : Link} {f : RxFrame} (h : InRange s) :
    AnswersInRange (.frameReceived l f) s := by
  simp only [AnswersInRange, exec, execFrameReceived]
  split
  · exact ⟨_, rfl, inRange_setPort h⟩
  · exact ⟨s, rfl, h⟩

theorem answersInRange_frameTransmitted {l : Link} (h : InRange s) : AnswersInRange (.frameTransmitted l) s := by
  simp only [AnswersInRange, exec, execFrameTransmitted]
  split
  · exact ⟨_, rfl, inRange_setPort h⟩
  · exact ⟨s, rfl, h⟩

/-- A link's restart forgets the answers owed to queued edits, not the edits (R51). -/
theorem answersInRange_busOff {l : Link} (h : InRange s) : AnswersInRange (.busOff l) s := by
  have edit (q : QueuedEdit) : (forgetEdit l q).edit = q.edit := by unfold forgetEdit; split <;> rfl
  have forgot {t : State} (k : InRange t) : InRange (forgetAnswers l t) :=
    k.of_feeds (by simp [feeds, forgetAnswers, edit])
  simp only [AnswersInRange, exec, execBusOff]
  split
  · exact ⟨_, rfl, forgot (inRange_setPort h)⟩
  · exact ⟨s, rfl, h⟩

theorem answersInRange_sample {l : Link} (h : InRange s) : AnswersInRange (.sample l) s := by
  have dropped : InRange (dropHead .ml s) := inRange_setPort h
  have taken : InRange (takeSampleFrame .ml s) := by
    unfold takeSampleFrame
    split
    · exact h
    · split
      · split
        · exact inRange_intakeSample dropped
        · exact dropped
      · exact h
  cases l with
  | ml => exact ⟨_, rfl, taken⟩
  | cl => exact ⟨_, rfl, inRange_takeRequest (fun _ _ => id) h⟩
  | sl => exact ⟨_, rfl, inRange_takeRequest (fun _ _ => id) h⟩

theorem answersInRange_stagePose (h : InRange s) : AnswersInRange .stagePose s := by
  simp only [AnswersInRange, exec, execStagePose]
  split
  · exact ⟨_, rfl, inRange_stagePose h ‹_›⟩
  · exact ⟨s, rfl, h⟩

theorem answersInRange_stageEvaluate (h : InRange s) : AnswersInRange .stageEvaluate s := by
  simp only [AnswersInRange, exec, execStageEvaluate]
  split
  · exact ⟨_, rfl, inRange_stageEvaluate h ‹_›⟩
  · exact ⟨s, rfl, h⟩

theorem answersInRange_stageAids (h : InRange s) : AnswersInRange .stageAids s := by
  simp only [AnswersInRange, exec, execStageAids]
  split
  · exact ⟨_, rfl, { h with latched := geometryOk_of_none rfl }⟩
  · exact ⟨s, rfl, h⟩

theorem answersInRange_solveCompletion {o : CompletionOrder} (h : InRange s) :
    AnswersInRange (.solveCompletion o) s := by
  simp only [AnswersInRange, exec, execSolveCompletion]
  split
  · exact ⟨_, rfl, inRange_completeSolve h⟩
  · exact ⟨s, rfl, h⟩

theorem answersInRange_staleTimerExpiry (h : InRange s) : AnswersInRange .staleTimerExpiry s := by
  simp only [AnswersInRange, exec, execStaleTimerExpiry]
  split
  · exact ⟨s, rfl, h⟩
  · split
    · exact ⟨_, rfl, inRange_sampleLoss (inRange_elapse h)⟩
    · exact ⟨s, rfl, h⟩

theorem answersInRange_idleTimerExpiry (h : InRange s) : AnswersInRange .idleTimerExpiry s := by
  simp only [AnswersInRange, exec, execIdleTimerExpiry]
  split
  · exact ⟨s, rfl, h⟩
  · exact ⟨_, rfl, inRange_ladderEvent (inRange_elapse h)⟩

theorem answersInRange_shutdownTimerExpiry (h : InRange s) : AnswersInRange .shutdownTimerExpiry s := by
  simp only [AnswersInRange, exec, execShutdownTimerExpiry]
  split
  · exact ⟨s, rfl, h⟩
  · exact ⟨_, rfl, inRange_retarget (inRange_elapse h)⟩

theorem answersInRange_durationExpiry (h : InRange s) : AnswersInRange .durationExpiry s := by
  have expired {t : State} (k : InRange t) : InRange (expireActive t) := by
    unfold expireActive
    split
    · exact inRange_ladderEvent k
    · exact k
  simp only [AnswersInRange, exec, execDurationExpiry]
  split
  · exact ⟨s, rfl, h⟩
  · exact ⟨_, rfl, expired (inRange_elapse h)⟩

theorem answersInRange_waitLimitExpiry {src : Source} (h : InRange s) : AnswersInRange (.waitLimitExpiry src) s := by
  simp only [AnswersInRange, exec, execWaitLimitExpiry]
  split
  · exact ⟨s, rfl, h⟩
  · exact ⟨_, rfl, h.of_feeds rfl⟩

theorem answersInRange_outputPeriodExpiry (h : InRange s) : AnswersInRange .outputPeriodExpiry s := by
  simp only [AnswersInRange, exec, execOutputPeriodExpiry]
  split
  · exact ⟨s, rfl, h⟩
  · exact ⟨_, rfl, inRange_transferOutput (inRange_elapse h)⟩

theorem answersInRange_cabViewExpiry (h : InRange s) : AnswersInRange .cabViewExpiry s := by
  simp only [AnswersInRange, exec, execCabViewExpiry]
  split
  · exact ⟨s, rfl, h⟩
  · exact ⟨_, rfl, inRange_sendCabView (inRange_elapse h)⟩

theorem answersInRange_saveTimerExpiry (h : InRange s) : AnswersInRange .saveTimerExpiry s := by
  simp only [AnswersInRange, exec, execSaveTimerExpiry]
  split
  · exact ⟨s, rfl, h⟩
  · exact ⟨_, rfl, inRange_triggerSave (h.of_feeds rfl)⟩

theorem answersInRange_saveRecordReadback {mismatch : Bool} (h : InRange s) :
    AnswersInRange (.saveRecordReadback mismatch) s := by
  simp only [AnswersInRange, exec, execSaveRecordReadback]
  split
  · split
    · exact ⟨_, rfl, inRange_writeBack h ‹_› ‹_›⟩
    · exact ⟨s, rfl, h⟩
  · exact ⟨s, rfl, h⟩

theorem answersInRange_saveCompletion (h : InRange s) : AnswersInRange .saveCompletion s := by
  have told (v : Save) : InRange (sendSaveDone v s) := by
    unfold sendSaveDone
    split
    · exact inRange_sendNotice h
    · exact h
  have after (v : Save) : InRange (afterSave v (sendSaveDone v s)) := by
    unfold afterSave
    split
    · exact inRange_enterLoading (told v)
    · split
      · exact inRange_startSave ((told v).of_feeds rfl)
      · exact { told v with snapped := fun _ hx => absurd hx List.not_mem_nil }
  simp only [AnswersInRange, exec, execSaveCompletion]
  split
  · split
    · exact ⟨_, rfl, after _⟩
    · exact ⟨s, rfl, h⟩
  · exact ⟨s, rfl, h⟩

/-- Every command keeps the invariant. -/
theorem exec_inRange (h : InRange s) : (c : Instr) → AnswersInRange c s
  | .powerOnReset _ => ⟨_, rfl, inRange_enterLoading h⟩
  | .loadRecordExamined => answersInRange_loadRecordExamined h
  | .loadCompletion => answersInRange_loadCompletion h
  | .frameReceived _ _ => answersInRange_frameReceived h
  | .frameTransmitted _ => answersInRange_frameTransmitted h
  | .busOff _ => answersInRange_busOff h
  | .busOffRecovery _ => ⟨_, rfl, inRange_setPort h⟩
  | .unknownRequest _ => ⟨_, rfl, inRange_takeRequest (fun _ _ => id) h⟩
  | .sample _ => answersInRange_sample h
  | .stagePose => answersInRange_stagePose h
  | .stageEvaluate => answersInRange_stageEvaluate h
  | .stageAids => answersInRange_stageAids h
  | .solveCompletion _ => answersInRange_solveCompletion h
  | .staleTimerExpiry => answersInRange_staleTimerExpiry h
  | .idleTimerExpiry => answersInRange_idleTimerExpiry h
  | .shutdownTimerExpiry => answersInRange_shutdownTimerExpiry h
  | .durationExpiry => answersInRange_durationExpiry h
  | .waitLimitExpiry _ => answersInRange_waitLimitExpiry h
  | .outputPeriodExpiry => answersInRange_outputPeriodExpiry h
  | .cabViewExpiry => answersInRange_cabViewExpiry h
  | .saveTimerExpiry => answersInRange_saveTimerExpiry h
  | .saveRecordReadback _ => answersInRange_saveRecordReadback h
  | .saveCompletion => answersInRange_saveCompletion h
  | .keyOff _ => ⟨_, rfl, inRange_takeRequest (fun _ _ => inRange_keyOff) h⟩
  | .regenDemandPlace _ | .regenDemandWithdraw _ => ⟨_, rfl, inRange_takeRequest (fun _ _ => inRange_regen) h⟩
  | .statusQuery _ | .identify _ => ⟨_, rfl, inRange_takeRequest (fun _ _ => inRange_reported) h⟩
  | .setMode _ | .setModeOff _ => ⟨_, rfl, inRange_takeRequest (fun _ _ => inRange_setMode) h⟩
  | .touchIdleOn _ | .touchIdleOff _ => ⟨_, rfl, inRange_takeRequest (fun _ _ => inRange_touchIdle) h⟩
  | .zoneEditWrite _ | .zoneEditDelete _ | .zoneEditSuspend _ | .zoneEditResume _ =>
    ⟨_, rfl, inRange_takeRequest (fun _ _ => inRange_zoneEdit) h⟩
  | .setGradeSet _ | .setGradeClear _ => ⟨_, rfl, inRange_takeRequest (fun _ _ => inRange_setGrade) h⟩
  | .ackItem _ => ⟨_, rfl, inRange_takeRequest (fun _ _ => inRange_ack) h⟩
  | .ringRead _ | .accumRead _ => ⟨_, rfl, inRange_takeRequest (fun _ _ => inRange_reply) h⟩
  | .ringAdvance _ => ⟨_, rfl, inRange_takeRequest (fun _ _ => inRange_ringAdvance) h⟩
  | .ringClearLost _ => ⟨_, rfl, inRange_takeRequest (fun _ _ => inRange_ringClearLost) h⟩
  | .stampRead _ => ⟨_, rfl, inRange_takeRequest (fun _ _ => inRange_stampRead) h⟩
  | .setGeometry _ => ⟨_, rfl, inRange_takeRequest (fun _ _ => inRange_setGeometry) h⟩
  | .setSolver _ => ⟨_, rfl, inRange_takeRequest (fun _ _ => inRange_setSolver) h⟩
  | .readFlags _ => ⟨_, rfl, inRange_takeRequest (fun _ _ => inRange_takeFlag) h⟩
  | .clearFlags _ => ⟨_, rfl, inRange_takeRequest (fun _ _ => inRange_clearFlags) h⟩
  | .setLadder _ => ⟨_, rfl, inRange_takeRequest (fun _ _ => inRange_setLadder) h⟩
  | .testDemandPlace _ | .testDemandWithdraw _ => ⟨_, rfl, inRange_takeRequest (fun _ _ => inRange_test) h⟩
  | .setEconomy _ => ⟨_, rfl, inRange_takeRequest (fun _ _ => inRange_setEconomy) h⟩
  | .setAidsThresholds _ | .setAidsTable _ => ⟨_, rfl, inRange_takeRequest (fun _ _ => inRange_setAids) h⟩
  | .itemDefine _ => ⟨_, rfl, inRange_takeRequest (fun _ _ => inRange_itemDefine) h⟩
  | .serviceDone _ => ⟨_, rfl, inRange_takeRequest (fun _ _ => inRange_serviceDone) h⟩
  | .itemRetire _ => ⟨_, rfl, inRange_takeRequest (fun _ _ => inRange_itemRetire) h⟩
  | .accumSet _ | .accumSetRatedFuel _ => ⟨_, rfl, inRange_takeRequest (fun _ _ => inRange_accumSet) h⟩
  | .setOutputPeriod _ => ⟨_, rfl, inRange_takeRequest (fun _ _ => inRange_setOutputPeriod) h⟩
  | .restart _ => ⟨_, rfl, inRange_takeRequest (fun _ _ => inRange_restart) h⟩

end

/-- Settles O54: a step is a command or an idle millisecond, and each keeps `InRange`. -/
theorem stepKeepsOutputInRange : Obligations.StepKeepsOutputInRange := by
  intro s t h hs
  rw [outputInv_iff] at h ⊢
  unfold step at hs
  split at hs
  · cases hs
    exact inRange_elapse h
  · rename_i c rest _
    have front : InRange { s with pending := rest } := h.of_feeds rfl
    obtain ⟨u, hu, k⟩ := exec_inRange front c
    rw [hu] at hs
    cases hs
    exact k

end Sys2Proof.Proofs
end

section
/-! SUPPORT. The cycle detector and the payload: each transition with its entry work, the timeout, the loaded swing's sums,
the cycle record and the payload table (R85 to R98), for O26. -/

namespace Sys2Proof.Proofs

open Sys2Proof Sys2Proof.Machine Sys2Proof.Laws

/-! ## The cycle elapsed (R87) -/

/-- The cycle elapsed behind a solve: of DIG and SWING_LOADED it runs on. -/
def elapsedAfter (interval : Nat) (u : AidUnit) : Nat :=
  if u.phase = .dig ∨ u.phase = .swingLoaded then min 240000 (u.elapsed + interval) else u.elapsed

theorem timesCycle_iff (now : Phase) : timesCycle now = true ↔ now = .dig ∨ now = .swingLoaded := by
  cases now <;> simp [timesCycle]

theorem addElapsed_eq (interval : Nat) (u : AidUnit) :
    addElapsed interval u = { u with elapsed := elapsedAfter interval u } := by
  unfold addElapsed elapsedAfter
  simp only [timesCycle_iff]
  split <;> rfl

/-! ## The loaded swing's sums (R90 to R92) -/

theorem boomForce_eq (r : AidRecord) (x : Sample) :
    boomForce r x = max (-32767) (min 32767 (Int.tdiv (x.boomHead * r.headArea - x.boomRod * r.rodArea) 1000000)) :=
  clamp_eq (by decide) _

theorem pressureFault_eq_false_iff (v : Validity) :
    pressureFault v = false ↔ v.boomHead = true ∧ v.boomRod = true ∧ v.armHead = true := by
  simp [pressureFault, and_assoc]

/-- An averaged solve changes the sums and the mark alone (R91). -/
theorem addAverage_spec (r : AidRecord) (x : Sample) (reach : Int) (u : AidUnit) :
    addAverage r x reach u = { u with
      pressureInvalid := u.pressureInvalid || pressureFault x.valid
      forceSum := if 65535 ≤ u.averaged then u.forceSum else u.forceSum + boomForce r x
      reachSum := if 65535 ≤ u.averaged then u.reachSum else u.reachSum + reach
      averaged := if 65535 ≤ u.averaged then u.averaged else u.averaged + 1 } := by
  unfold addAverage
  by_cases full : 65535 ≤ u.averaged <;> simp [full]

theorem addLoaded_settling {r : AidRecord} {u : AidUnit} (h : ((min 255 (u.loaded + 1) : Nat) : Int) ≤ r.settle)
    (x : Sample) (reach : Int) : addLoaded r x reach u = { u with loaded := min 255 (u.loaded + 1) } :=
  if_neg (Int.not_lt.2 h)

theorem addLoaded_settled {r : AidRecord} {u : AidUnit} (h : r.settle < ((min 255 (u.loaded + 1) : Nat) : Int))
    (x : Sample) (reach : Int) :
    addLoaded r x reach u = addAverage r x reach { u with loaded := min 255 (u.loaded + 1) } := if_pos h

@[simp] theorem addLoaded_loaded (r : AidRecord) (x : Sample) (reach : Int) (u : AidUnit) :
    (addLoaded r x reach u).loaded = min 255 (u.loaded + 1) := by
  rcases Int.lt_or_le r.settle ((min 255 (u.loaded + 1) : Nat) : Int) with h | h
  · rw [addLoaded_settled h, addAverage_spec]
  · rw [addLoaded_settling h]

/-- R91 and R92: what a loaded solve makes of the sums. -/
theorem addLoaded_loadedSolve (r : AidRecord) (x : Sample) (reach : Int) (u : AidUnit) :
    LoadedSolve r x reach u (addLoaded r x reach u) := by
  refine ⟨addLoaded_loaded r x reach u, fun settling => ?_, fun settled => ?_⟩
  · rw [addLoaded_loaded] at settling ⊢
    rw [addLoaded_settling settling]
    exact ⟨rfl, rfl, rfl, rfl, rfl⟩
  · rw [addLoaded_loaded] at settled
    rw [addLoaded_settled settled, addAverage_spec, ← boomForce_eq, ← pressureFault_eq_false_iff]
    refine ⟨fun sound => ?_, fun fault => ?_, fun room => ?_, fun full => ?_⟩
    · simp [sound]
    · simp [fault]
    · simp [Nat.not_le.2 room]
    · simp [full]

/-- A loaded solve leaves the rest of the unit. -/
theorem addLoaded_frame (r : AidRecord) (x : Sample) (reach : Int) (u : AidUnit) :
    ∃ a b c d e, addLoaded r x reach u =
      { u with loaded := a, forceSum := b, reachSum := c, averaged := d, pressureInvalid := e } := by
  rcases Int.lt_or_le r.settle ((min 255 (u.loaded + 1) : Nat) : Int) with h | h
  · rw [addLoaded_settled h, addAverage_spec]
    exact ⟨_, _, _, _, _, rfl⟩
  · rw [addLoaded_settling h]
    exact ⟨_, _, _, _, _, rfl⟩

/-- Step 4 of R81 changes sums, counts and mark alone. -/
theorem paySums_frame (r : AidRecord) (x : Sample) (reach : Int) (u : AidUnit) :
    ∃ a b c d e, paySums r x reach u =
      { u with loaded := a, forceSum := b, reachSum := c, averaged := d, pressureInvalid := e } := by
  unfold paySums
  split
  · exact addLoaded_frame r x reach u
  · exact ⟨_, _, _, _, _, rfl⟩

theorem paySums_of_swing {u : AidUnit} (h : u.phase = .swingLoaded) (r : AidRecord) (x : Sample) (reach : Int) :
    paySums r x reach u = addLoaded r x reach u := if_pos h

theorem paySums_of_other {u : AidUnit} (h : u.phase ≠ .swingLoaded) (r : AidRecord) (x : Sample) (reach : Int) :
    paySums r x reach u = u := if_neg h

/-! ## Transitions (R85) -/

/-- The condition of the transition out of a phase (table of R85). -/
def CycleMoves (r : AidRecord) (x : Sample) (p : PoseResult) (now : Phase) : Prop :=
  ((now = .idle ∨ now = .swingEmpty) ∧ |p.omega| < r.omegaStill ∧ x.valid.armHead = true ∧ r.digPressure ≤ x.armHead) ∨
    (now = .dig ∧ r.omegaSwing ≤ |p.omega| ∧ r.curl ≤ p.bucket) ∨ (now = .swingLoaded ∧ p.bucket < r.dump) ∨
    (now = .dump ∧ r.omegaSwing ≤ |p.omega|)

/-- The phase that the transition out of a phase leads to (table of R85). -/
def phaseAfter : Phase → Phase
  | .idle => .dig
  | .dig => .swingLoaded
  | .swingLoaded => .dump
  | .dump => .swingEmpty
  | .swingEmpty => .dig

/-- The cycle moves along the table exactly under its condition. -/
theorem nextPhase_spec (r : AidRecord) (x : Sample) (p : PoseResult) (now : Phase) :
    (CycleMoves r x p now → nextPhase r x p now = some (phaseAfter now)) ∧
      (¬CycleMoves r x p now → nextPhase r x p now = none) := by
  cases now <;> simp +contextual [CycleMoves, nextPhase, phaseAfter, digReady, armAtLeast, magnitude_eq_abs]

theorem cycleStep_moves {r : AidRecord} {x : Sample} {p : PoseResult} {u : AidUnit} (h : CycleMoves r x p u.phase)
    (t : Eight PayloadPoint) :
    cycleStep r x t p u =
      enterPhase r x t (phaseAfter u.phase) { u with elapsed := elapsedAfter p.interval u } := by
  simp only [cycleStep, (nextPhase_spec r x p u.phase).1 h, addElapsed_eq]

theorem cycleStep_stays {r : AidRecord} {x : Sample} {p : PoseResult} {u : AidUnit} (h : ¬CycleMoves r x p u.phase)
    (t : Eight PayloadPoint) :
    cycleStep r x t p u = stayInPhase r p.interval { u with elapsed := elapsedAfter p.interval u } := by
  simp only [cycleStep, (nextPhase_spec r x p u.phase).2 h, addElapsed_eq]

/-! ## Entry work (R87, R89, R90, R93, R96, R98) -/

/-- Every phase is entered with no time in it, and record and table stay. -/
theorem enterPhase_unit (r : AidRecord) (x : Sample) (t : Eight PayloadPoint) (n : Phase) (u : AidUnit) :
    (enterPhase r x t n u).unit.timeIn = 0 ∧ (enterPhase r x t n u).unit.record = u.record ∧
      (enterPhase r x t n u).unit.table = u.table := by
  cases n <;> exact ⟨rfl, rfl, rfl⟩

/-- Nothing of a cycle's completion happened: last cycle record and prescaler stay, no payload and no stamp. -/
def NoCycle (u : AidUnit) (c : CycleOutcome) : Prop :=
  c.unit.last = u.last ∧ c.unit.prescaler = u.prescaler ∧ c.completed = none ∧ c.stamp = none

/-- Only DUMP entry completes a cycle. -/
theorem enterPhase_noCycle {n : Phase} (h : n ≠ .dump) (r : AidRecord) (x : Sample) (t : Eight PayloadPoint)
    (u : AidUnit) : NoCycle u (enterPhase r x t n u) := by
  cases n with
  | dump => exact absurd rfl h
  | _ => exact ⟨rfl, rfl, rfl, rfl⟩

section
variable {r : AidRecord} {x : Sample} {p : PoseResult} {u : AidUnit}

/-- DIG entry (R87, R89). -/
theorem cycleStep_to_dig (h : CycleMoves r x p u.phase) (now : u.phase = .idle ∨ u.phase = .swingEmpty)
    (t : Eight PayloadPoint) :
    cycleStep r x t p u =
      { unit := { u with phase := .dig, timeIn := 0, start := some ⟨x.seq, x.timestamp⟩, elapsed := 0 }
        boost := if x.valid.armHead = true ∧ r.boostPressure ≤ x.armHead then some .place else none
        completed := none, stamp := none } := by
  have after : phaseAfter u.phase = .dig := by rcases now with now | now <;> rw [now] <;> rfl
  rw [cycleStep_moves h, after]
  simp only [enterPhase, armAtLeast, Bool.and_eq_true, decide_eq_true_eq]

/-- SWING_LOADED entry (R89, R90). -/
theorem cycleStep_to_swingLoaded (h : CycleMoves r x p u.phase) (now : u.phase = .dig) (t : Eight PayloadPoint) :
    cycleStep r x t p u =
      { unit := { noSums u with phase := .swingLoaded, timeIn := 0, elapsed := elapsedAfter p.interval u }
        boost := some .withdraw, completed := none, stamp := none } := by
  rw [cycleStep_moves h, now]
  rfl

/-- DUMP entry (R93, R96, R98). -/
theorem cycleStep_to_dump (h : CycleMoves r x p u.phase) (now : u.phase = .swingLoaded) (t : Eight PayloadPoint) :
    cycleStep r x t p u =
      enterDump r x t { u with phase := .dump, timeIn := 0, elapsed := elapsedAfter p.interval u } := by
  rw [cycleStep_moves h, now]
  rfl

/-- SWING_EMPTY entry: no entry work. -/
theorem cycleStep_to_swingEmpty (h : CycleMoves r x p u.phase) (now : u.phase = .dump) (t : Eight PayloadPoint) :
    cycleStep r x t p u =
      { unit := { u with phase := .swingEmpty, timeIn := 0, elapsed := elapsedAfter p.interval u }
        boost := none, completed := none, stamp := none } := by
  rw [cycleStep_moves h, now]
  rfl

/-! ## Without a transition (R86) -/

/-- The phase times out. -/
def TimesOut (r : AidRecord) (interval : Nat) (u : AidUnit) : Prop :=
  u.phase ≠ .idle ∧ 1000 * r.timeout ≤ (min 120000 (u.timeIn + interval) : Nat)

theorem cycleStep_timesOut (h : ¬CycleMoves r x p u.phase) (out : TimesOut r p.interval u) (t : Eight PayloadPoint) :
    cycleStep r x t p u = timeoutFrom { u with elapsed := elapsedAfter p.interval u } := by
  rw [cycleStep_stays h]
  exact if_pos out

theorem cycleStep_remains (h : ¬CycleMoves r x p u.phase) (on : ¬TimesOut r p.interval u) (t : Eight PayloadPoint) :
    cycleStep r x t p u =
      { unit := { u with elapsed := elapsedAfter p.interval u, timeIn := min 120000 (u.timeIn + p.interval) }
        boost := none, completed := none, stamp := none } := by
  rw [cycleStep_stays h]
  exact if_neg on

/-- The effects of a timeout by the phase left, whatever the cycle elapsed has become (R86). -/
theorem timeoutFrom_spec (u : AidUnit) (n : Nat) :
    let c := timeoutFrom { u with elapsed := n }
    c.unit.phase = .idle ∧ c.unit.timeIn = 0 ∧ c.boost = (if u.phase = .dig then some .withdraw else none) ∧
      c.unit.start = (if u.phase = .dig ∨ u.phase = .swingLoaded then none else u.start) ∧
      SameSums (if u.phase = .swingLoaded then noSums u else u) c.unit := by
  unfold timeoutFrom
  cases now : u.phase <;> exact ⟨rfl, rfl, rfl, rfl, rfl, rfl, rfl, rfl, rfl⟩

/-- Neither a timeout nor a solve that stays in its phase completes a cycle; record, table and cycle elapsed stay. -/
theorem stayInPhase_frame (r : AidRecord) (interval : Nat) (u : AidUnit) :
    NoCycle u (stayInPhase r interval u) ∧ (stayInPhase r interval u).unit.record = u.record ∧
      (stayInPhase r interval u).unit.table = u.table ∧ (stayInPhase r interval u).unit.elapsed = u.elapsed := by
  unfold stayInPhase timeoutFrom
  dsimp only
  split
  · split <;> exact ⟨⟨rfl, rfl, rfl, rfl⟩, rfl, rfl, rfl⟩
  · exact ⟨⟨rfl, rfl, rfl, rfl⟩, rfl, rfl, rfl⟩

/-- The cycle detector leaves record and table. -/
theorem cycleStep_keeps (r : AidRecord) (x : Sample) (t : Eight PayloadPoint) (p : PoseResult) (u : AidUnit) :
    (cycleStep r x t p u).unit.record = u.record ∧ (cycleStep r x t p u).unit.table = u.table := by
  by_cases moves : CycleMoves r x p u.phase
  · rw [cycleStep_moves moves]
    exact (enterPhase_unit _ _ _ _ _).2
  · rw [cycleStep_stays moves]
    obtain ⟨-, record, table, -⟩ := stayInPhase_frame r p.interval { u with elapsed := elapsedAfter p.interval u }
    exact ⟨record, table⟩

/-- A cycle completes at DUMP entry alone. -/
theorem cycleStep_noCycle (h : ¬(CycleMoves r x p u.phase ∧ u.phase = .swingLoaded)) (t : Eight PayloadPoint) :
    NoCycle u (cycleStep r x t p u) := by
  by_cases moves : CycleMoves r x p u.phase
  · rw [cycleStep_moves moves]
    refine enterPhase_noCycle ?_ _ _ _ _
    have elsewhere : u.phase ≠ .swingLoaded := fun now => h ⟨moves, now⟩
    revert elsewhere
    cases u.phase <;> decide
  · rw [cycleStep_stays moves]
    exact (stayInPhase_frame _ _ _).1

end

/-! ## The last cycle record (R93, R96) -/

/-- What the averages of a loaded swing give: reach and payload, absent when nothing was averaged, the payload absent
too when a pressure channel was invalid. -/
theorem swing_averages (t : Eight PayloadPoint) (u : AidUnit) :
    (u.averaged = 0 → averageReach u = none ∧ swingPayload t u = none) ∧
      (u.averaged ≠ 0 → averageReach u = some (Int.tdiv u.reachSum u.averaged)) ∧
      (u.pressureInvalid = true → swingPayload t u = none) ∧
      (u.averaged ≠ 0 → u.pressureInvalid = false →
        swingPayload t u = some (payloadKg t (Int.tdiv u.forceSum u.averaged) (Int.tdiv u.reachSum u.averaged))) := by
  refine ⟨fun none => ?_, fun some => ?_, fun invalid => ?_, fun some valid => ?_⟩
  · simp [swingPayload, averageReach, none]
  · simp [averageReach, some, truncDiv]
  · simp [swingPayload, invalid]
  · simp [swingPayload, averageReach, some, valid, truncDiv]

@[simp] theorem enterDump_phase (r : AidRecord) (x : Sample) (t : Eight PayloadPoint) (u : AidUnit) :
    (enterDump r x t u).unit.phase = u.phase := rfl

/-- The prescaler at DUMP entry (R98). -/
theorem enterDump_prescaler (r : AidRecord) (x : Sample) (t : Eight PayloadPoint) (u : AidUnit) :
    (r.prescale ≤ u.prescaler + 1 → (enterDump r x t u).unit.prescaler = 0 ∧
      (enterDump r x t u).stamp = some ⟨cycleRecord x t u, r.prescale, u.prescaler + 1⟩) ∧
    (u.prescaler + 1 < r.prescale → (enterDump r x t u).unit.prescaler = u.prescaler + 1 ∧
      (enterDump r x t u).stamp = none) := by
  exact ⟨fun due => ⟨if_pos due, if_pos due⟩, fun early => ⟨if_neg (Nat.not_le.2 early), if_neg (Nat.not_le.2 early)⟩⟩

/-! ## The payload (R94, R95) -/

/-- The walk through a rising table: the last point's value at or beyond the end, else the value interpolated between the
two points around the reach (R94). -/
theorem tableWalk_spec (f : PayloadPoint → Int) (reach : Int) (qs : List PayloadPoint) :
    ∀ p : PayloadPoint, (p :: qs).Pairwise (fun a b => a.reach < b.reach) →
      (((p :: qs).getLast (by simp)).reach ≤ reach → tableWalk f reach p qs = f ((p :: qs).getLast (by simp))) ∧
      ∀ a b, (a, b) ∈ (p :: qs).zip qs → a.reach ≤ reach → reach < b.reach →
        tableWalk f reach p qs = interpolate reach a.reach b.reach (f a) (f b) := by
  induction qs with
  | nil => exact fun p _ => ⟨fun _ => rfl, by simp⟩
  | cons q qs ih =>
    intro p rising
    obtain ⟨first, rest⟩ := List.pairwise_cons.1 rising
    obtain ⟨last, between⟩ := ih q rest
    have fromQ : ∀ a ∈ q :: qs, q.reach ≤ a.reach := by
      obtain ⟨above, -⟩ := List.pairwise_cons.1 rest
      exact List.forall_mem_cons.2 ⟨le_rfl, fun a ha => (above a ha).le⟩
    rw [List.getLast_cons (List.cons_ne_nil q qs), tableWalk]
    by_cases below : reach < q.reach
    · rw [if_pos below]
      refine ⟨fun beyond => ?_, fun a b mem lo hi => ?_⟩
      · have := fromQ _ (List.getLast_mem (List.cons_ne_nil q qs))
        omega
      · rcases List.mem_cons.1 mem with pair | mem
        · cases pair
          rfl
        · have := fromQ a (List.of_mem_zip mem).1
          omega
    · rw [if_neg below]
      refine ⟨last, fun a b mem lo hi => ?_⟩
      rcases List.mem_cons.1 mem with pair | mem
      · cases pair
        exact absurd hi below
      · exact between a b mem lo hi

theorem tableAt_atReach (f : PayloadPoint → Int) {t : Eight PayloadPoint} (h : strictlyRising t = true) (reach : Int) :
    AtReach f t reach (tableAt f t reach) := by
  have rising : [t.p0, t.p1, t.p2, t.p3, t.p4, t.p5, t.p6, t.p7].Pairwise (fun a b => a.reach < b.reach) := by
    rw [strictlyRising_iff] at h
    simp only [List.pairwise_cons, List.forall_mem_cons, List.not_mem_nil, false_imp_iff, implies_true, and_true,
      List.Pairwise.nil]
    omega
  obtain ⟨first, -⟩ := List.pairwise_cons.1 rising
  obtain ⟨last, between⟩ := tableWalk_spec f reach _ _ rising
  unfold tableAt
  by_cases below : reach < t.p0.reach
  · rw [if_pos below]
    have fromFirst : ∀ a ∈ [t.p0, t.p1, t.p2, t.p3, t.p4, t.p5, t.p6, t.p7], t.p0.reach ≤ a.reach :=
      List.forall_mem_cons.2 ⟨le_rfl, fun a ha => (first a ha).le⟩
    refine ⟨fun _ => rfl, fun beyond => ?_, fun a b mem lo _ => ?_⟩
    · have := fromFirst t.p7 (by simp)
      omega
    · have := fromFirst a (List.of_mem_zip (l₂ := [t.p1, t.p2, t.p3, t.p4, t.p5, t.p6, t.p7]) mem).1
      omega
  · rw [if_neg below]
    exact ⟨fun h => absurd h below, last, between⟩

theorem payloadKg_eq (t : Eight PayloadPoint) (force reach : Int) :
    payloadKg t force reach = max 0 (min 65535 (Int.tdiv
      ((force - tableAt PayloadPoint.empty t reach) * tableAt PayloadPoint.gain t reach) 10)) :=
  clamp_eq (by decide) _

/-- The payload lies in 0 to 65535, and a rising table gives its two values at the reach (R94, R95). -/
theorem payloadKg_spec (t : Eight PayloadPoint) (force reach : Int) :
    (0 ≤ payloadKg t force reach ∧ payloadKg t force reach ≤ 65535) ∧
      (strictlyRising t = true → ∃ empty gain,
        AtReach PayloadPoint.empty t reach empty ∧ AtReach PayloadPoint.gain t reach gain ∧
        payloadKg t force reach = max 0 (min 65535 (Int.tdiv ((force - empty) * gain) 10))) := by
  rw [payloadKg_eq]
  exact ⟨⟨by omega, by omega⟩, fun rising =>
    ⟨_, _, tableAt_atReach _ rising reach, tableAt_atReach _ rising reach, rfl⟩⟩

end Sys2Proof.Proofs
end

section
/-! SUPPORT. Stage AIDS: a WITHHELD solve's return, grade offset and cue (O25), and the cycle (O26). -/

namespace Sys2Proof.Proofs

open Sys2Proof Sys2Proof.Machine Sys2Proof.Laws

/-! ## The stage (R81) -/

theorem exec_stageAids {s : State} {l : Latch} {p : PoseResult} {e : EvalResult} {r : AidRecord}
    {t : Eight PayloadPoint} (h : s.solver.solve = .aids l p e r t) :
    exec .stageAids s = .next
      { s with
        aid := (aidsResults s.table.plane r t l p s.aid).1
        solver := { s.solver with solve := .finished l p e (aidsResults s.table.plane r t l p s.aid).2 } } := by
  change execStageAids s = _
  simp only [execStageAids, h]

/-- Without usable points the unit returns to IDLE (R88). -/
theorem aidsResults_withheld {p : PoseResult} (h : usable p.quality = false) (plane : GradePlane) (r : AidRecord)
    (t : Eight PayloadPoint) (l : Latch) (u : AidUnit) : aidsResults plane r t l p u = (forcedReturn u, withheldAids) := by
  simp [aidsResults, usablePoints, h]

theorem aidsResults_usable {p : PoseResult} {pts : Points} (h : UsablePose p pts) (plane : GradePlane) (r : AidRecord)
    (t : Eight PayloadPoint) (l : Latch) (u : AidUnit) :
    aidsResults plane r t l p u = usableAids plane r l.sample t p pts.p3 u := by
  simp only [aidsResults, usablePoints_of_usable h]

/-! ## Grade (R82 to R84) -/

theorem gradeOf_without_plane {plane : GradePlane} (h : plane = .absent ∨ plane = .faulted) (tip : Point) :
    gradeOf plane tip = (none, .none) := by
  obtain rfl | rfl := h <;> rfl

theorem gradeOffset_eq (b : PlaneBody) (tip : Point) :
    gradeOffset b tip = max (-32767) (min 32767 (tip.z - (b.elevation + Int.tdiv (tip.r * b.slope) 1000))) :=
  clamp_eq (by decide) _

/-- The cue by the offset's place against the tolerance (R83). -/
theorem cueOf_spec {tolerance : Int} (h : 0 ≤ tolerance) (g : Int) :
    (tolerance < g → cueOf tolerance g = .above) ∧ (g < -tolerance → cueOf tolerance g = .below) ∧
      (-tolerance ≤ g → g ≤ tolerance → cueOf tolerance g = .on) := by
  unfold cueOf
  refine ⟨fun above => if_pos above, fun below => ?_, fun lo hi => ?_⟩
  · rw [if_neg (by omega), if_pos below]
  · rw [if_neg (by omega), if_neg (by omega)]

/-! ## The stage and the cycle detector -/

theorem usableAids_keeps (plane : GradePlane) (r : AidRecord) (x : Sample) (t : Eight PayloadPoint) (p : PoseResult)
    (tip : Point) (u : AidUnit) :
    (usableAids plane r x t p tip u).1.record = u.record ∧ (usableAids plane r x t p tip u).1.table = u.table := by
  obtain ⟨record, table⟩ := cycleStep_keeps r x t p u
  obtain ⟨_, _, _, _, _, paid⟩ := paySums_frame r x tip.r (cycleStep r x t p u).unit
  simp only [usableAids, paid]
  exact ⟨record, table⟩

/-- Settles O25: the stage of a WITHHELD solve is the forced return, and that of a usable one forms offset and cue by
`gradeOf`. -/
theorem stageAidsFormsGradeAndReturns : Obligations.StageAidsFormsGradeAndReturns := by
  refine ⟨fun s l p e r t solve withheld => ?_, fun s l p e r t pts solve usable => ?_⟩
  · rw [exec_stageAids solve, aidsResults_withheld (by rw [withheld]; rfl)]
    rfl
  · have stage := exec_stageAids solve
    rw [aidsResults_usable usable] at stage
    obtain ⟨record, table⟩ := usableAids_keeps s.table.plane r l.sample t p pts.p3 s.aid
    refine ⟨_, _, stage, record, table, fun without => ?_, fun o b plane tolerance => ?_⟩
    · simp only [usableAids, gradeOf_without_plane without, and_self]
    · simp only [usableAids, plane, gradeOf, ← gradeOffset_eq]
      exact ⟨trivial, cueOf_spec tolerance _⟩

/-- Settles O26: clause by clause, the cycle detector takes the transition whose condition `CycleMoves` says is met, or
times out, or stays; step 4 of R81 then adds a solve that ends in SWING_LOADED. -/
theorem cyclePhaseMovesOneStep : Obligations.CyclePhaseMovesOneStep := by
  refine ⟨fun s l p e r t pts solve usable => ?_, payloadKg_spec⟩
  have stage := exec_stageAids solve
  rw [aidsResults_usable usable] at stage
  obtain ⟨record, table⟩ := usableAids_keeps s.table.plane r l.sample t p pts.p3 s.aid
  refine ⟨_, _, stage, record, table, ?_⟩
  intro x still elapsed moves timesOut
  obtain ⟨_, _, _, _, _, paid⟩ := paySums_frame r x pts.p3.r (cycleStep r x t p s.aid).unit
  have noCycle (h : ¬(CycleMoves r x p s.aid.phase ∧ s.aid.phase = .swingLoaded)) := cycleStep_noCycle h t
  simp only [usableAids]
  refine ⟨fun m => ?_, fun m now => ?_, fun m now => ?_, fun m now => ?_, fun away => ?_, fun m now => ?_, fun m => ?_,
    fun out => ?_, fun m on => ?_⟩
  · rw [paid, cycleStep_moves m]
    exact (enterPhase_unit _ _ _ _ _).1
  · rw [cycleStep_to_dig m now, paySums_of_other (by simp)]
    exact ⟨rfl, rfl, rfl, ⟨rfl, rfl, rfl, rfl, rfl⟩, rfl⟩
  · rw [cycleStep_to_swingLoaded m now, paySums_of_swing rfl]
    obtain ⟨_, _, _, _, _, loaded⟩ := addLoaded_frame r x pts.p3.r
      { noSums s.aid with phase := .swingLoaded, timeIn := 0, elapsed := elapsedAfter p.interval s.aid }
    refine ⟨?_, rfl, ?_, ?_, addLoaded_loaded _ _ _ _, addLoaded_loadedSolve _ _ _ _⟩ <;> rw [loaded] <;> rfl
  · rw [cycleStep_to_dump m now, paySums_of_other (by simp)]
    obtain ⟨none, some, invalid, valid⟩ := swing_averages t s.aid
    refine ⟨rfl, rfl, ⟨rfl, rfl, rfl, rfl, rfl⟩, rfl, rfl, _, rfl, rfl, rfl, rfl, rfl, rfl, none, some, invalid, valid,
      ?_⟩
    exact enterDump_prescaler r x t { s.aid with phase := .dump, timeIn := 0, elapsed := elapsedAfter p.interval s.aid }
  · rw [paid]
    exact noCycle away
  · rw [cycleStep_to_swingEmpty m now, paySums_of_other (by simp)]
    exact ⟨rfl, rfl, rfl, rfl, rfl, rfl, rfl, rfl, rfl⟩
  · rw [paid, cycleStep_stays m]
    exact (stayInPhase_frame _ _ _).2.2.2
  · obtain ⟨m, out⟩ := out
    obtain ⟨idle, rest⟩ := timeoutFrom_spec s.aid (elapsedAfter p.interval s.aid)
    rw [cycleStep_timesOut m out, paySums_of_other (by rw [idle]; decide)]
    exact ⟨idle, rest⟩
  · have on' : ¬TimesOut r p.interval s.aid := fun out => on ⟨m, out⟩
    have remains := cycleStep_remains m on' t
    refine ⟨?_, ?_, ?_, ?_, fun now => ?_, fun now => ?_⟩
    · rw [paid, remains]
    · rw [paid, remains]
    · rw [remains]
    · rw [paid, remains]
    · rw [remains, paySums_of_swing (by exact now)]
      exact addLoaded_loadedSolve _ _ _ _
    · rw [remains, paySums_of_other (by exact now)]
      exact ⟨rfl, rfl, rfl, rfl, rfl⟩

end Sys2Proof.Proofs
end

section
/-! SUPPORT. What the invariant of R88 reads (O57), operations that neither change it nor place DIG_BOOST, and every
request as one of them. -/

namespace Sys2Proof.Proofs

open Sys2Proof Sys2Proof.Machine Sys2Proof.Laws

/-! ## The relation -/

/-- The results of a solve whose stage AIDS has ended. -/
def endedAids : Solve → Option (PoseResult × AidsResult)
  | .finished _ p _ a => some (p, a)
  | _ => none

/-- From `s` to `t` no stage AIDS ends and no solve completes, pose quality and cycle phase stay, and no DIG_BOOST is
placed where there is none. -/
structure Boostless (s t : State) : Prop where
  ended : endedAids t.solver.solve = endedAids s.solver.solve
  quality : t.solver.pose.quality = s.solver.pose.quality
  phase : t.aid.phase = s.aid.phase
  boost : demandOf .digBoost s.ladder.records = none → demandOf .digBoost t.ladder.records = none

/-- `phaseBefore` as a function of what it reads: the results of an ended stage AIDS, the pose quality and the phase. -/
def returnedBefore (q : Quality) (u : Phase) : Option (PoseResult × AidsResult) → Prop
  | some (p, a) => usable p.quality = true ∨ (u = .idle ∧ a.boost = some .withdraw)
  | none => usable q = true ∨ u = .idle

theorem phaseBefore_iff (s : State) :
    phaseBefore s ↔ returnedBefore s.solver.pose.quality s.aid.phase (endedAids s.solver.solve) := by
  unfold phaseBefore
  cases s.solver.solve <;> exact .rfl

theorem boosted_iff (s : State) : ¬boosted s ↔ demandOf .digBoost s.ladder.records = none := not_not

theorem Boostless.keeps {s t : State} (h : Boostless s t) (k : BoostInv s) : BoostInv t := by
  obtain ⟨before, after⟩ := k
  constructor
  · rw [phaseBefore_iff] at before ⊢
    rwa [h.ended, h.phase, h.quality]
  · rw [boosted_iff] at after ⊢
    rw [h.quality]
    exact after.imp_right h.boost

theorem Boostless.trans {s t u : State} (h : Boostless s t) (k : Boostless t u) : Boostless s u where
  ended := k.ended.trans h.ended
  quality := k.quality.trans h.quality
  phase := k.phase.trans h.phase
  boost := k.boost ∘ h.boost

/-- What the relation compares: the solve in flight, the pose, the cycle phase and the demands. -/
@[simp] def returnView (s : State) : Solve × PoseRecord × Phase × List Demand :=
  (s.solver.solve, s.solver.pose, s.aid.phase, s.ladder.records)

theorem Boostless.of_view {s t : State} (h : returnView t = returnView s) : Boostless s t := by
  simp only [returnView, Prod.mk.injEq] at h
  obtain ⟨solve, pose, phase, records⟩ := h
  exact ⟨by rw [solve], by rw [pose], phase, by rw [records]; exact id⟩

theorem Boostless.refl (s : State) : Boostless s s := .of_view rfl

theorem EditsOnly.boostless {s t : State} (h : EditsOnly s t) : Boostless s t := by
  obtain ⟨g, v, solver⟩ := h.solver
  exact .of_view (by rw [returnView, solver, h.aid, h.ladder]; rfl)

section
variable {s : State}

/-! ## Operations on the schedule leave solver, aid unit and ladder alone -/

@[simp] theorem produceNotice_solver (n : Notice) (s : State) : (produceNotice n s).solver = s.solver :=
  ((onSchedule_produceNotice n).only s).solver

@[simp] theorem produceNotice_aid (n : Notice) (s : State) : (produceNotice n s).aid = s.aid :=
  ((onSchedule_produceNotice n).only s).aid

@[simp] theorem produceNotice_ladder (n : Notice) (s : State) : (produceNotice n s).ladder = s.ladder :=
  ((onSchedule_produceNotice n).only s).ladder

@[simp] theorem syncService_records (s : State) : (syncService s).ladder.records = s.ladder.records := by
  obtain ⟨-, -, ⟨x, y, h⟩, -⟩ := syncService_spec s
  rw [h]

@[simp] theorem handOnBasis_solver (s : State) (a : Accum) : (handOnBasis s a).solver = s.solver := by
  obtain ⟨⟨_, only, -⟩, -⟩ := handOnBasis_spec s a
  exact only.solver

@[simp] theorem handOnBasis_aid (s : State) (a : Accum) : (handOnBasis s a).aid = s.aid := by
  obtain ⟨⟨_, only, -⟩, -⟩ := handOnBasis_spec s a
  exact only.aid

@[simp] theorem handOnBasis_ladder (s : State) (a : Accum) : (handOnBasis s a).ladder = s.ladder := by
  obtain ⟨⟨_, only, -⟩, -⟩ := handOnBasis_spec s a
  exact only.ladder

theorem boostless_advanceReader (r : Reader) (p : Nat) : Boostless s (advanceReader r p s) := by
  have only := (onSchedule_releaseFrom (heldCount s.ring)).only
    { s with ring := setReader r (advanced (readerOf s.ring r) p) s.ring }
  exact .of_view (by
    simp only [returnView, advanceReader]
    rw [only.solver, only.aid, only.ladder])

/-! ## Ports, time and ladder -/

/-- An answer behind what it follows. -/
theorem Boostless.reply {t : State} (h : Boostless s t) (l : Link) (r : Request) (x : Result) (e : Echo) :
    Boostless s (reply l r x e t) := h.trans (.of_view (by simp))

theorem boostless_sendNotice (l : Link) (b : TxBody) : Boostless s (sendNotice l b s) := .of_view (by simp)

theorem boostless_markDirty (r : RecordId) : Boostless s (markDirty r s) := .of_view (by simp)

/-- Records of the same sources. -/
theorem absent_map {src : Source} {f : Demand → Demand} (hf : ∀ d, (f d).source = d.source) {ds : List Demand}
    (h : demandOf src ds = none) : demandOf src (ds.map f) = none := by
  rw [demandOf_eq_none_iff] at h ⊢
  exact List.forall_mem_map.2 fun d hd => (hf d).symm ▸ h d hd

/-- Timers run down; no record comes or goes. -/
theorem boostless_elapse (ms : Nat) : Boostless s (elapse ms s) := ⟨rfl, rfl, rfl, absent_map (runDemand_source ms)⟩

/-- One event at the ladder places no DIG_BOOST by itself (R106). -/
theorem boostless_ladderEvent {L : Ladder} (drops : List Drop)
    (h : demandOf .digBoost s.ladder.records = none → demandOf .digBoost L.records = none) :
    Boostless s (ladderEvent L drops s) := by
  obtain ⟨event, -⟩ := ladderEvent_spec L drops s
  rw [watchShutdown_spec] at event
  rw [event]
  exact ⟨rfl, rfl, rfl, fun none => settle_absent (h none)⟩

/-! ## Taking a request -/

theorem boostless_takeRequest {me : Instr} {l : Link} {serve : Payload → State → State}
    (h : ∀ d t, Boostless t (serve d t)) : Boostless s (takeRequest me l serve s) := by
  have taken : Boostless s (takeHead l s) := .of_view (by simp)
  obtain k | ⟨b, k⟩ | ⟨f, -, k⟩ := takeRequest_cases me l serve s <;> rw [k]
  · exact .refl s
  · exact taken.trans (.of_view (by simp))
  · exact taken.trans (h _ _)

/-! ## The requests at the ladder: none of them names DIG_BOOST -/

variable {l : Link} {d : Payload}

theorem boostless_servePlace {r : Request} {src : Source} {rpm : Int} {duration wait : Option Nat}
    (h : Source.digBoost ≠ src) : Boostless s (servePlace l r src rpm duration wait s) :=
  (boostless_ladderEvent [] fun none => placeDemand_absent _ _ _ _ none h).reply _ _ _ _

theorem boostless_serveWithdraw {r : Request} {src : Source} : Boostless s (serveWithdraw l r src s) := by
  unfold serveWithdraw
  split
  · exact .of_view (by simp)
  · exact (boostless_ladderEvent [] withoutSource_absent).reply _ _ _ _

theorem boostless_setMode : Boostless s (serveSetMode l d s) := by
  unfold serveSetMode
  split
  · split
    · exact boostless_servePlace (by decide)
    · exact boostless_serveWithdraw
  · exact .of_view (by simp)

theorem boostless_touchIdle : Boostless s (serveTouchIdle l d s) := by
  unfold serveTouchIdle
  split
  · exact boostless_servePlace (by decide)
  · exact boostless_serveWithdraw
  · exact .of_view (by simp)

theorem boostless_regen : Boostless s (serveRegen l d s) := by
  unfold serveRegen
  split
  · exact boostless_servePlace (by decide)
  · exact boostless_serveWithdraw
  · exact .of_view (by simp)

theorem boostless_test : Boostless s (serveTest l d s) := by
  unfold serveTest
  split
  · split
    · exact .of_view (by simp)
    · exact boostless_servePlace (by decide)
  · exact boostless_servePlace (by decide)
  · exact boostless_serveWithdraw
  · exact boostless_serveWithdraw
  · exact .of_view (by simp)

/-- A new configuration gives the records other levels and another order, no other sources (R123). -/
theorem reconfigure_absent {src : Source} {L : Ladder} (c : LadderConfig) (h : demandOf src L.records = none) :
    demandOf src (reconfigure c L).records = none := by
  have leveled := absent_map (f := fun d => { d with level := srcGet c.levels d.source }) (fun _ => rfl) h
  rw [demandOf_eq_none_iff] at leveled ⊢
  exact fun d hd => leveled d ((mem_sortDemands _ _ _).1 hd)

theorem boostless_setLadder : Boostless s (serveSetLadder l d s) := by
  unfold serveSetLadder
  split
  · split
    · exact ((boostless_ladderEvent [] (reconfigure_absent _)).trans (boostless_markDirty _)).reply _ _ _ _
    · exact .of_view (by simp)
  · exact .of_view (by simp)

@[simp] theorem replaceEconomy_records (e : Economy) (L : Ladder) : (replaceEconomy e L).records = L.records := by
  unfold replaceEconomy
  split <;> rfl

@[simp] theorem retarget_records (L : Ladder) (s : State) : (retarget L s).ladder.records = L.records := rfl

theorem boostless_setEconomy : Boostless s (serveSetEconomy l d s) := by
  unfold serveSetEconomy
  split <;> exact .of_view (by simp)

/-! ## The other requests: each branch answers, behind operations that leave the four alone -/

theorem boostless_ack : Boostless s (serveAck l d s) := by
  unfold serveAck serveAck.serveAckOn
  repeat' split
  all_goals exact .of_view (by simp)

theorem boostless_serviceDone : Boostless s (serveServiceDone l d s) := by
  unfold serveServiceDone
  repeat' split
  all_goals exact .of_view (by simp)

theorem boostless_itemDefine : Boostless s (serveItemDefine l d s) := by
  unfold serveItemDefine
  repeat' split
  all_goals exact .of_view (by simp)

theorem boostless_itemRetire : Boostless s (serveItemRetire l d s) := by
  unfold serveItemRetire sendRetired
  repeat' split
  all_goals exact .of_view (by simp)

theorem boostless_ringAdvance : Boostless s (serveRingAdvance l d s) := by
  unfold serveRingAdvance
  split
  · dsimp only
    split
    · exact (boostless_advanceReader _ _).reply _ _ _ _
    · exact .of_view (by simp)
  · exact .of_view (by simp)

theorem boostless_ringClearLost : Boostless s (serveRingClearLost l d s) := by
  unfold serveRingClearLost
  split
  · dsimp only
    split <;> exact .of_view (by simp)
  · exact .of_view (by simp)

theorem boostless_accumSet : Boostless s (serveAccumSet l d s) := by
  unfold serveAccumSet
  dsimp only
  repeat' split
  all_goals exact .of_view (by simp)

theorem boostless_setSolver : Boostless s (serveSetSolver l d s) := by
  unfold serveSetSolver
  repeat' split
  all_goals exact .of_view (by simp)

theorem boostless_takeFlag {r : Request} {q : FlagRequest} : Boostless s (takeFlag l r q d s) := by
  unfold takeFlag queueFlag
  split
  · rw [performFlag_spec]
    exact .of_view (by simp)
  · split <;> exact .of_view (by simp)

theorem boostless_clearFlags : Boostless s (serveClearFlags l d s) := by
  unfold serveClearFlags
  split
  · split
    · exact .of_view (by simp)
    · exact boostless_takeFlag
  · exact .of_view (by simp)

/-- SET_AIDS replaces the record or the table, not the phase (R99, R100). -/
theorem boostless_setAids : Boostless s (serveSetAids l d s) := by
  unfold serveSetAids
  repeat' split
  all_goals exact .of_view (by simp)

theorem boostless_setOutputPeriod : Boostless s (serveSetOutputPeriod l d s) := by
  unfold serveSetOutputPeriod
  split <;> exact .of_view (by simp)

theorem boostless_stampRead : Boostless s (serveStampRead l d s) := by
  unfold serveStampRead
  split <;> exact .of_view (by simp)

/-- A request that reports a port's receive overrun (R168, R185). -/
theorem boostless_reported {r : Request} {x : Result} {e : Echo} : Boostless s (reply l r x e (clearOverrun l s)) :=
  .of_view (by simp)

theorem boostless_keyOff : Boostless s (serveKeyOff l d s) := by
  unfold serveKeyOff
  exact .of_view (by simp)

theorem boostless_restart : Boostless s (serveRestart l d s) := by
  unfold serveRestart acceptRestart placeNodes
  repeat' split
  all_goals exact .of_view (by simp)

end

end Sys2Proof.Proofs
end

section
/-! SUPPORT. Every step keeps R88's return and withdrawal (O57): the commands that neither end stage AIDS nor complete a
solve, and those that do. -/

namespace Sys2Proof.Proofs

open Sys2Proof Sys2Proof.Machine Sys2Proof.Laws

section
variable {s : State}

/-- The command answers a state to which the part moves without ending stage AIDS or placing DIG_BOOST. -/
def AnswersBoostless (c : Instr) (s : State) : Prop := ∃ t, exec c s = .next t ∧ Boostless s t

/-- The command answers a state that keeps the invariant. -/
def AnswersReturned (c : Instr) (s : State) : Prop := ∃ t, exec c s = .next t ∧ BoostInv t

theorem AnswersBoostless.returned {c : Instr} (h : AnswersBoostless c s) (k : BoostInv s) : AnswersReturned c s := by
  obtain ⟨t, answers, boostless⟩ := h
  exact ⟨t, answers, boostless.keeps k⟩

/-! ## Links and samples -/

theorem answersBoostless_frameReceived {l : Link} {f : RxFrame} : AnswersBoostless (.frameReceived l f) s := by
  simp only [AnswersBoostless, exec, execFrameReceived]
  split
  · exact ⟨_, rfl, .of_view (by simp)⟩
  · exact ⟨s, rfl, .refl s⟩

theorem answersBoostless_frameTransmitted {l : Link} : AnswersBoostless (.frameTransmitted l) s := by
  simp only [AnswersBoostless, exec, execFrameTransmitted]
  split
  · exact ⟨_, rfl, .of_view (by simp)⟩
  · exact ⟨s, rfl, .refl s⟩

theorem answersBoostless_busOff {l : Link} : AnswersBoostless (.busOff l) s := by
  simp only [AnswersBoostless, exec, execBusOff, forgetAnswers]
  split
  · exact ⟨_, rfl, .of_view (by simp)⟩
  · exact ⟨s, rfl, .refl s⟩

/-- A sample begins a solve at most where none is in flight (R4). -/
theorem boostless_intakeSample {x : Sample} : Boostless s (intakeSample x s) := by
  unfold intakeSample
  split
  · exact .refl s
  · by_cases idle : s.solver.solve = .idle
    · exact ⟨by simp [takeSample_idle x idle, endedAids, idle], by simp [takeSample_idle x idle], by simp, by simp⟩
    · rw [takeSample_busy x idle]
      exact .of_view (by simp)

theorem answersBoostless_sample {l : Link} : AnswersBoostless (.sample l) s := by
  have dropped : Boostless s (dropHead .ml s) := .of_view (by simp)
  have taken : Boostless s (takeSampleFrame .ml s) := by
    unfold takeSampleFrame
    split
    · exact .refl s
    · split
      · split
        · exact dropped.trans boostless_intakeSample
        · exact dropped
      · exact .refl s
  cases l with
  | ml => exact ⟨_, rfl, taken⟩
  | cl => exact ⟨_, rfl, boostless_takeRequest fun _ => .refl⟩
  | sl => exact ⟨_, rfl, boostless_takeRequest fun _ => .refl⟩

/-! ## The stages of a solve -/

theorem answersBoostless_stagePose : AnswersBoostless .stagePose s := by
  simp only [AnswersBoostless, exec, execStagePose]
  split
  · rename_i l hs
    exact ⟨_, rfl, by rw [hs]; rfl, rfl, rfl, id⟩
  · exact ⟨s, rfl, .refl s⟩

theorem answersBoostless_stageEvaluate : AnswersBoostless .stageEvaluate s := by
  simp only [AnswersBoostless, exec, execStageEvaluate]
  split
  · rename_i l p hs
    refine ⟨_, rfl, ?_⟩
    unfold stageEvaluate
    split <;> exact ⟨by rw [hs]; rfl, rfl, rfl, id⟩
  · exact ⟨s, rfl, .refl s⟩

/-- Stage AIDS of a WITHHELD solve returns the phase to IDLE and asks for the withdrawal (R81, R88). -/
theorem answersReturned_stageAids (h : BoostInv s) : AnswersReturned .stageAids s := by
  cases stage : s.solver.solve with
  | aids l p e r t =>
    obtain ⟨-, withdrawn⟩ := h
    refine ⟨_, exec_stageAids stage, ?_, withdrawn⟩
    cases use : usable p.quality with
    | true => exact .inl use
    | false =>
      rw [aidsResults_withheld use]
      exact .inr ⟨rfl, rfl⟩
  | _ => exact ⟨s, by simp only [exec, execStageAids, stage], h⟩

/-- Once a solve has completed none is at the end of stage AIDS. -/
theorem endedAids_finished {m t : State} (h : FinishedFrom m t) : endedAids t.solver.solve = none := by
  cases slot : m.intake.slot with
  | none =>
    obtain ⟨idle, -⟩ := h.idle slot
    rw [idle]
    rfl
  | some x =>
    obtain ⟨begun, -⟩ := h.next x slot
    rw [begun]
    rfl

/-- A completion publishes the solve's quality; when that is WITHHELD the phase stands at IDLE, and the ladder takes the
request that withdraws DIG_BOOST (R11, R21, R88). -/
theorem answersReturned_solveCompletion {o : CompletionOrder} (h : BoostInv s) :
    AnswersReturned (.solveCompletion o) s := by
  cases ended : s.solver.solve with
  | finished l p e a =>
    have hand := handOffs_spec o l p e a s
    have finish := finish_spec o.edits (handOffs o l p e a s)
    obtain ⟨g, v, solver⟩ := finish.solver
    obtain ⟨before, took, -⟩ := hand.ladder
    obtain ⟨said, -⟩ := h
    rw [phaseBefore_iff, ended] at said
    refine ⟨_, exec_solveCompletion ended o, ?_⟩
    have quality : (nextSolve (applyEdits o.edits (serveFlags (handOffs o l p e a s)))).solver.pose.quality = p.quality := by
      rw [solver, hand.solver]
      simp only [publishPose, poseAfter]
      split <;> rfl
    constructor
    · rw [phaseBefore_iff, endedAids_finished finish, quality, finish.aid, hand.aid]
      exact said.imp_right And.left
    · rw [quality, boosted_iff, finish.ladder]
      exact said.imp_right fun ⟨_, withdraw⟩ => took.boost_withdraw withdraw
  | _ => exact ⟨s, by simp only [exec, execSolveCompletion, ended], h⟩

/-! ## Timers -/

/-- Sample loss returns the phase to IDLE and withdraws DIG_BOOST (R88). -/
theorem answersReturned_staleTimerExpiry (h : BoostInv s) : AnswersReturned .staleTimerExpiry s := by
  cases timer : s.intake.stale with
  | none => exact ⟨s, by simp only [exec, execStaleTimerExpiry, timer], h⟩
  | some k =>
    by_cases idle : s.solver.solve = .idle
    · obtain ⟨t, answers, -, solver, -, -, -, -, -, -, aid, withdrawn, -⟩ := staleExpiryDeclaresSampleLoss s k timer idle
      refine ⟨t, answers, ?_, .inr ((boosted_iff t).2 withdrawn)⟩
      rw [phaseBefore_iff, solver, aid, idle]
      exact .inr rfl
    · have busy : solverIdle s = false := decide_eq_false idle
      exact ⟨s, by simp [exec, execStaleTimerExpiry, timer, busy], h⟩

theorem answersBoostless_idleTimerExpiry : AnswersBoostless .idleTimerExpiry s := by
  have expired {L : Ladder} (none : demandOf .digBoost L.records = none) :
      demandOf .digBoost (idleExpired L).records = .none := by
    unfold idleExpired
    split
    · exact placeDemand_absent _ _ _ _ none (by decide)
    · exact none
  simp only [AnswersBoostless, exec, execIdleTimerExpiry]
  split
  · exact ⟨s, rfl, .refl s⟩
  · exact ⟨_, rfl, (boostless_elapse _).trans (boostless_ladderEvent _ expired)⟩

theorem answersBoostless_shutdownTimerExpiry : AnswersBoostless .shutdownTimerExpiry s := by
  simp only [AnswersBoostless, exec, execShutdownTimerExpiry]
  split
  · exact ⟨s, rfl, .refl s⟩
  · rename_i n _
    exact ⟨_, rfl, (boostless_elapse n).trans (.of_view (by simp))⟩

theorem answersBoostless_durationExpiry : AnswersBoostless .durationExpiry s := by
  have expired {t : State} : Boostless t (expireActive t) := by
    unfold expireActive
    split
    · rename_i d rest hr
      refine boostless_ladderEvent _ fun none => ?_
      rw [hr, demandOf_eq_none_iff] at none
      exact demandOf_eq_none_iff.2 fun x hx => none x (List.mem_cons_of_mem d hx)
    · exact .refl t
  simp only [AnswersBoostless, exec, execDurationExpiry]
  split
  · exact ⟨s, rfl, .refl s⟩
  · exact ⟨_, rfl, (boostless_elapse _).trans expired⟩

theorem answersBoostless_waitLimitExpiry {src : Source} : AnswersBoostless (.waitLimitExpiry src) s := by
  have marked (d : Demand) : (waitExpired src d).source = d.source := by
    unfold waitExpired
    split <;> rfl
  simp only [AnswersBoostless, exec, execWaitLimitExpiry]
  split
  · exact ⟨s, rfl, .refl s⟩
  · exact ⟨_, rfl, (boostless_elapse _).trans ⟨rfl, rfl, rfl, absent_map marked⟩⟩

theorem answersBoostless_outputPeriodExpiry : AnswersBoostless .outputPeriodExpiry s := by
  simp only [AnswersBoostless, exec, execOutputPeriodExpiry]
  split
  · exact ⟨s, rfl, .refl s⟩
  · rename_i n _
    exact ⟨_, rfl, (boostless_elapse n).trans (.of_view (by simp))⟩

theorem answersBoostless_cabViewExpiry : AnswersBoostless .cabViewExpiry s := by
  simp only [AnswersBoostless, exec, execCabViewExpiry]
  split
  · exact ⟨s, rfl, .refl s⟩
  · rename_i n _
    exact ⟨_, rfl, (boostless_elapse n).trans (.of_view (by simp))⟩

/-! ## Saves, resets and the image load -/

theorem answersBoostless_saveTimerExpiry : AnswersBoostless .saveTimerExpiry s := by
  simp only [AnswersBoostless, exec, execSaveTimerExpiry]
  split
  · exact ⟨s, rfl, .refl s⟩
  · rename_i n _
    exact ⟨_, rfl, (boostless_elapse n).trans (.of_view (by simp))⟩

theorem answersBoostless_saveRecordReadback {mismatch : Bool} : AnswersBoostless (.saveRecordReadback mismatch) s := by
  have written (v : Save) (r : SnapRecord) : Boostless s (writeBack mismatch v r s) := by
    unfold writeBack spoilRecord
    dsimp only
    split
    · split <;> exact .of_view (by simp)
    · exact .of_view (by simp)
  simp only [AnswersBoostless, exec, execSaveRecordReadback]
  split
  · split
    · exact ⟨_, rfl, written _ _⟩
    · exact ⟨s, rfl, .refl s⟩
  · exact ⟨s, rfl, .refl s⟩

/-- A reset part's phase is IDLE, and its ladder is empty. -/
theorem boostInv_enterLoading (m : WriteMoment) (s : State) : BoostInv (enterLoading m s) :=
  ⟨.inr rfl, .inr (not_not.2 rfl)⟩

theorem answersReturned_saveCompletion (h : BoostInv s) : AnswersReturned .saveCompletion s := by
  have told (v : Save) : BoostInv (sendSaveDone v s) := by
    unfold sendSaveDone
    split
    · exact (boostless_sendNotice _ _).keeps h
    · exact h
  have after (v : Save) : BoostInv (afterSave v (sendSaveDone v s)) := by
    unfold afterSave
    split
    · exact boostInv_enterLoading _ _
    · split <;> exact Boostless.keeps (.of_view (by simp)) (told v)
  simp only [AnswersReturned, exec, execSaveCompletion]
  split
  · split
    · exact ⟨_, rfl, after _⟩
    · exact ⟨s, rfl, h⟩
  · exact ⟨s, rfl, h⟩

theorem answersBoostless_loadRecordExamined : AnswersBoostless .loadRecordExamined s := by
  have examined (r : RecordId) : Boostless s (examineRecord r s) := by
    unfold examineRecord readNodes
    dsimp only
    split <;> split <;> exact .of_view (by simp)
  simp only [AnswersBoostless, exec, execLoadRecordExamined]
  split
  · exact ⟨_, rfl, examined _⟩
  · exact ⟨s, rfl, .refl s⟩

/-- The load fills configuration and thresholds; pose, phase and demands stay as they are (R186). -/
theorem boostless_finishLoad {m : State} (h : ScheduleOnly (scheduleLoaded s) m) : Boostless s (finishLoad m) := by
  have kept : returnView m = returnView (scheduleLoaded s) := by rw [returnView, h.solver, h.aid, h.ladder]; rfl
  exact .of_view kept

theorem answersBoostless_loadCompletion : AnswersBoostless .loadCompletion s := by
  have whole : completeLoad s = finishLoad ((List.range 24).foldl announceFault (scheduleLoaded s)) := by
    simp only [completeLoad, loadSchedule_eq, finishLoad, scheduleLoaded]
  simp only [AnswersBoostless, exec, execLoadCompletion]
  split
  · exact ⟨_, rfl, whole ▸ boostless_finishLoad (.foldl scheduleOnly_announceFault _ _)⟩
  · exact ⟨s, rfl, .refl s⟩

/-! ## Every command -/

/-- Every command keeps the invariant. -/
theorem exec_returned (h : BoostInv s) : (c : Instr) → AnswersReturned c s
  | .powerOnReset m => ⟨_, rfl, boostInv_enterLoading m s⟩
  | .loadRecordExamined => answersBoostless_loadRecordExamined.returned h
  | .loadCompletion => answersBoostless_loadCompletion.returned h
  | .frameReceived _ _ => answersBoostless_frameReceived.returned h
  | .frameTransmitted _ => answersBoostless_frameTransmitted.returned h
  | .busOff _ => answersBoostless_busOff.returned h
  | .busOffRecovery _ => ⟨_, rfl, Boostless.keeps (.of_view (by simp)) h⟩
  | .unknownRequest _ => ⟨_, rfl, (boostless_takeRequest fun _ => .refl).keeps h⟩
  | .sample _ => answersBoostless_sample.returned h
  | .stagePose => answersBoostless_stagePose.returned h
  | .stageEvaluate => answersBoostless_stageEvaluate.returned h
  | .stageAids => answersReturned_stageAids h
  | .solveCompletion _ => answersReturned_solveCompletion h
  | .staleTimerExpiry => answersReturned_staleTimerExpiry h
  | .idleTimerExpiry => answersBoostless_idleTimerExpiry.returned h
  | .shutdownTimerExpiry => answersBoostless_shutdownTimerExpiry.returned h
  | .durationExpiry => answersBoostless_durationExpiry.returned h
  | .waitLimitExpiry _ => answersBoostless_waitLimitExpiry.returned h
  | .outputPeriodExpiry => answersBoostless_outputPeriodExpiry.returned h
  | .cabViewExpiry => answersBoostless_cabViewExpiry.returned h
  | .saveTimerExpiry => answersBoostless_saveTimerExpiry.returned h
  | .saveRecordReadback _ => answersBoostless_saveRecordReadback.returned h
  | .saveCompletion => answersReturned_saveCompletion h
  | .keyOff _ => ⟨_, rfl, (boostless_takeRequest fun _ _ => boostless_keyOff).keeps h⟩
  | .regenDemandPlace _ | .regenDemandWithdraw _ => ⟨_, rfl, (boostless_takeRequest fun _ _ => boostless_regen).keeps h⟩
  | .statusQuery _ | .identify _ => ⟨_, rfl, (boostless_takeRequest fun _ _ => boostless_reported).keeps h⟩
  | .ringRead _ | .accumRead _ => ⟨_, rfl, (boostless_takeRequest fun _ t => (Boostless.refl t).reply _ _ _ _).keeps h⟩
  | .setMode _ | .setModeOff _ => ⟨_, rfl, (boostless_takeRequest fun _ _ => boostless_setMode).keeps h⟩
  | .touchIdleOn _ | .touchIdleOff _ => ⟨_, rfl, (boostless_takeRequest fun _ _ => boostless_touchIdle).keeps h⟩
  | .zoneEditWrite l | .zoneEditDelete l | .zoneEditSuspend l | .zoneEditResume l =>
    ⟨_, rfl, (boostless_takeRequest fun d t => (editsOnly_serveZoneEdit l d t).boostless).keeps h⟩
  | .setGradeSet l | .setGradeClear l =>
    ⟨_, rfl, (boostless_takeRequest fun d t => (editsOnly_serveSetGrade l d t).boostless).keeps h⟩
  | .ackItem _ => ⟨_, rfl, (boostless_takeRequest fun _ _ => boostless_ack).keeps h⟩
  | .ringAdvance _ => ⟨_, rfl, (boostless_takeRequest fun _ _ => boostless_ringAdvance).keeps h⟩
  | .ringClearLost _ => ⟨_, rfl, (boostless_takeRequest fun _ _ => boostless_ringClearLost).keeps h⟩
  | .stampRead _ => ⟨_, rfl, (boostless_takeRequest fun _ _ => boostless_stampRead).keeps h⟩
  | .setGeometry l => ⟨_, rfl, (boostless_takeRequest fun d t => (editsOnly_serveSetGeometry l d t).boostless).keeps h⟩
  | .setSolver _ => ⟨_, rfl, (boostless_takeRequest fun _ _ => boostless_setSolver).keeps h⟩
  | .readFlags _ => ⟨_, rfl, (boostless_takeRequest fun _ _ => boostless_takeFlag).keeps h⟩
  | .clearFlags _ => ⟨_, rfl, (boostless_takeRequest fun _ _ => boostless_clearFlags).keeps h⟩
  | .setLadder _ => ⟨_, rfl, (boostless_takeRequest fun _ _ => boostless_setLadder).keeps h⟩
  | .testDemandPlace _ | .testDemandWithdraw _ => ⟨_, rfl, (boostless_takeRequest fun _ _ => boostless_test).keeps h⟩
  | .setEconomy _ => ⟨_, rfl, (boostless_takeRequest fun _ _ => boostless_setEconomy).keeps h⟩
  | .setAidsThresholds _ | .setAidsTable _ => ⟨_, rfl, (boostless_takeRequest fun _ _ => boostless_setAids).keeps h⟩
  | .itemDefine _ => ⟨_, rfl, (boostless_takeRequest fun _ _ => boostless_itemDefine).keeps h⟩
  | .serviceDone _ => ⟨_, rfl, (boostless_takeRequest fun _ _ => boostless_serviceDone).keeps h⟩
  | .itemRetire _ => ⟨_, rfl, (boostless_takeRequest fun _ _ => boostless_itemRetire).keeps h⟩
  | .accumSet _ | .accumSetRatedFuel _ => ⟨_, rfl, (boostless_takeRequest fun _ _ => boostless_accumSet).keeps h⟩
  | .setOutputPeriod _ => ⟨_, rfl, (boostless_takeRequest fun _ _ => boostless_setOutputPeriod).keeps h⟩
  | .restart _ => ⟨_, rfl, (boostless_takeRequest fun _ _ => boostless_restart).keeps h⟩

end

/-- Settles O57: a step is a command or an idle millisecond, and each keeps `BoostInv`. -/
theorem stepKeepsBoostWithdrawn : Obligations.StepKeepsBoostWithdrawn := by
  intro s t h hs
  unfold step at hs
  split at hs
  · cases hs
    exact (boostless_elapse 1).keeps h
  · rename_i c rest _
    have front : BoostInv { s with pending := rest } := Boostless.keeps (s := s) (.of_view rfl) h
    obtain ⟨u, hu, k⟩ := exec_returned front c
    rw [hu] at hs
    cases hs
    exact k

end Sys2Proof.Proofs
end

section
/-! SUPPORT. Integration at a hand-off, one accumulator at a time (R127 to R133): ENGINE_TIME (O36), FUEL (O37), and the
others with the greatest values (O38). -/

namespace Sys2Proof.Proofs

open Sys2Proof Sys2Proof.Machine Sys2Proof.Laws

/-! ## One addition (R133; log 15) -/

/-- An accumulator below its greatest value, which more `units` do not carry past it. -/
def Fits (a : Accum) (units : Nat) (v : AccumValue) : Prop := v.value < accumMax a ∧ v.value + units ≤ accumMax a

/-- An accumulator that stands at its greatest value, or that more `units` carry past it, when something is added. -/
def Fills (a : Accum) (added units : Nat) (v : AccumValue) : Prop :=
  0 < added ∧ v.value ≤ accumMax a ∧ (accumMax a < v.value + units ∨ v.value = accumMax a)

theorem raiseValue_within {a : Accum} {units : Nat} {v : AccumValue} (h : v.value + units ≤ accumMax a) :
    (raiseValue a units v).value = v.value + units := by
  obtain ⟨-, -, value⟩ := raiseValue_spec a units v
  rw [value (by omega)]
  omega

theorem Fits.rest {a : Accum} {units : Nat} {v : AccumValue} (h : Fits a units v) (added rest : Nat) :
    heldRest a added units v rest = rest := by
  obtain ⟨below, within⟩ := h
  exact if_neg fun ⟨_, full⟩ => by omega

theorem Fills.value {a : Accum} {added units : Nat} {v : AccumValue} (h : Fills a added units v) :
    (raiseValue a units v).value = accumMax a := by
  obtain ⟨-, range, full⟩ := h
  obtain ⟨-, -, value⟩ := raiseValue_spec a units v
  rw [value range]
  omega

theorem Fills.rest {a : Accum} {added units : Nat} {v : AccumValue} (h : Fills a added units v) (rest : Nat) :
    heldRest a added units v rest = 0 := by
  obtain ⟨some, -, full⟩ := h
  exact if_pos ⟨some, by omega⟩

/-- What additions may make of an accumulator: it does not decrease, keeps its LOST mark, and stays at its greatest
value. -/
structure Raised (a : Accum) (v w : AccumValue) : Prop where
  lost : w.lost = v.lost
  value : v.value ≤ w.value
  stays : v.value = accumMax a → w.value = accumMax a

theorem Raised.refl (a : Accum) (v : AccumValue) : Raised a v v := ⟨rfl, le_rfl, id⟩

theorem Raised.trans {a : Accum} {u v w : AccumValue} (h : Raised a u v) (k : Raised a v w) : Raised a u w where
  lost := k.lost.trans h.lost
  value := h.value.trans k.value
  stays := k.stays ∘ h.stays

theorem raiseValue_raised (a : Accum) (units : Nat) (v : AccumValue) : Raised a v (raiseValue a units v) := by
  obtain ⟨lost, value, range⟩ := raiseValue_spec a units v
  exact ⟨lost, value, fun top => by rw [range top.le]; omega⟩

/-! ## Every accumulator rises -/

/-- Every accumulator has at most risen. -/
def AllRaised (d t : Duty) : Prop := ∀ a, Raised a (accGet d.values a) (accGet t.values a)

theorem AllRaised.refl (d : Duty) : AllRaised d d := fun a => .refl a _

theorem AllRaised.trans {d t u : Duty} (h : AllRaised d t) (k : AllRaised t u) : AllRaised d u :=
  fun a => (h a).trans (k a)

/-- One accumulator raised, whatever becomes of the remainders. -/
theorem allRaised_of_values {d t : Duty} (b : Accum) {units : Nat}
    (h : t.values = accSet d.values b (raiseValue b units (accGet d.values b))) : AllRaised d t := by
  intro a
  rw [h]
  by_cases hab : a = b
  · subst hab
    rw [accGet_accSet]
    exact raiseValue_raised a units _
  · rw [accGet_accSet_ne _ _ _ _ hab]
    exact .refl a _

theorem addEngineTime_raised (h : DutyHandoff) (d : Duty) : AllRaised d (addEngineTime h d) := by
  unfold addEngineTime
  split
  · exact allRaised_of_values .engineTime rfl
  · exact .refl d

theorem addLoadTime_raised (h : DutyHandoff) (d : Duty) : AllRaised d (addLoadTime h d) := by
  unfold addLoadTime
  split
  · exact allRaised_of_values .loadTime rfl
  · exact .refl d

theorem addFuel_raised (h : DutyHandoff) (d : Duty) : AllRaised d (addFuel h d) := by
  unfold addFuel
  split
  · exact allRaised_of_values .fuel rfl
  · exact .refl d

theorem addSlew_raised (h : DutyHandoff) (d : Duty) : AllRaised d (addSlew h d) := by
  unfold addSlew
  split
  · split
    · exact .refl d
    · exact allRaised_of_values .slew rfl
  · exact .refl d

theorem addCompleted_raised (c : Option (Option Int)) (d : Duty) : AllRaised d (addCompleted c d) := by
  have cycle : AllRaised d (addCycle d) := allRaised_of_values .cycles rfl
  have tonnes : ∀ kg t, AllRaised t (addTonnes kg t) := by
    intro kg t
    unfold addTonnes
    split
    · exact .refl t
    · exact allRaised_of_values .tonnes rfl
  unfold addCompleted
  split
  · exact .refl d
  · exact cycle
  · exact cycle.trans (tonnes _ _)

/-- A hand-off lets no accumulator decrease (R133). -/
theorem integrate_raised (h : DutyHandoff) (d : Duty) : AllRaised d (integrate h d) := by
  have sample : AllRaised d (integrateSample h d) := by
    unfold integrateSample
    split
    · exact .refl d
    · exact (((addEngineTime_raised h d).trans (addLoadTime_raised h _)).trans (addFuel_raised h _)).trans
        (addSlew_raised h _)
  exact sample.trans (addCompleted_raised _ _)

/-! ## The additions side by side -/

/-- A restart solve adds nothing in step 1 of R127. -/
theorem integrateSample_restart {h : DutyHandoff} (hs : h.slewChange = none) (d : Duty) : integrateSample h d = d := by
  simp [integrateSample, hs]

/-- The additions of step 1 of R127 touch one accumulator each, with its remainders, and read no other. -/
theorem integrateSample_run {h : DutyHandoff} (hs : h.slewChange ≠ none) (d : Duty) :
    integrateSample h d = { d with
      values := { d.values with
        p0 := (addEngineTime h d).values.p0, p1 := (addLoadTime h d).values.p1, p2 := (addFuel h d).values.p2
        p3 := (addSlew h d).values.p3 }
      engineMs := (addEngineTime h d).engineMs
      loadMs := (addLoadTime h d).loadMs, loadQuarter := (addLoadTime h d).loadQuarter
      fuelRest := (addFuel h d).fuelRest } := by
  have engine : addEngineTime h d = { d with
      values := { d.values with p0 := (addEngineTime h d).values.p0 }, engineMs := (addEngineTime h d).engineMs } := by
    unfold addEngineTime
    split <;> rfl
  have load : ∀ x n, addLoadTime h { d with values := { d.values with p0 := x }, engineMs := n } = { d with
      values := { d.values with p0 := x, p1 := (addLoadTime h d).values.p1 }, engineMs := n
      loadMs := (addLoadTime h d).loadMs, loadQuarter := (addLoadTime h d).loadQuarter } := by
    intro x n
    unfold addLoadTime
    split <;> rfl
  have fuel : ∀ x y n m q, addFuel h { d with
        values := { d.values with p0 := x, p1 := y }, engineMs := n, loadMs := m, loadQuarter := q } = { d with
      values := { d.values with p0 := x, p1 := y, p2 := (addFuel h d).values.p2 }, engineMs := n, loadMs := m
      loadQuarter := q, fuelRest := (addFuel h d).fuelRest } := by
    intro x y n m q
    unfold addFuel
    split <;> rfl
  have slew : ∀ x y z n m q f, addSlew h { d with
        values := { d.values with p0 := x, p1 := y, p2 := z }, engineMs := n, loadMs := m, loadQuarter := q
        fuelRest := f } = { d with
      values := { d.values with p0 := x, p1 := y, p2 := z, p3 := (addSlew h d).values.p3 }, engineMs := n, loadMs := m
      loadQuarter := q, fuelRest := f } := by
    intro x y z n m q f
    unfold addSlew
    split
    · split <;> rfl
    · rfl
  unfold integrateSample
  rw [if_neg (by simpa using hs), engine, load, fuel, slew]

/-- Steps 1 and 2 of R127 touch different accumulators, and neither reads one of the other's. -/
theorem integrate_eq (h : DutyHandoff) (d : Duty) :
    integrate h d = { integrateSample h d with
      values := { (integrateSample h d).values with
        p4 := (addCompleted h.completed d).values.p4, p5 := (addCompleted h.completed d).values.p5 }
      tonnesKg := (addCompleted h.completed d).tonnesKg } := by
  have completed : ∀ x y z u n m q f, addCompleted h.completed { d with
        values := { d.values with p0 := x, p1 := y, p2 := z, p3 := u }, engineMs := n, loadMs := m, loadQuarter := q
        fuelRest := f } = { d with
      values := ⟨x, y, z, u, (addCompleted h.completed d).values.p4, (addCompleted h.completed d).values.p5⟩
      engineMs := n, loadMs := m, loadQuarter := q, fuelRest := f
      tonnesKg := (addCompleted h.completed d).tonnesKg } := by
    intro x y z u n m q f
    unfold addCompleted
    split
    · rfl
    · rfl
    · unfold addTonnes
      split <;> rfl
  unfold integrate
  by_cases hs : h.slewChange = none
  · rw [integrateSample_restart hs]
    exact completed _ _ _ _ _ _ _ _
  · rw [integrateSample_run hs]
    exact completed _ _ _ _ _ _ _ _

/-! ## Each accumulator at a hand-off -/

theorem engineRunning_iff (h : DutyHandoff) :
    engineRunning h = true ↔ (h.engineValid = true ∧ 500 ≤ h.engine) ∨ h.engineValid = false := by
  unfold engineRunning
  cases h.engineValid <;> simp

theorem engineRunning_stopped {h : DutyHandoff} (stopped : h.engineValid = true ∧ h.engine < 500) :
    engineRunning h = false := by
  simp [engineRunning, stopped]

section
variable {h : DutyHandoff} {d : Duty}

/-- ENGINE_TIME while the engine runs (R128). -/
theorem integrate_engineTime (hs : h.slewChange ≠ none) (hr : engineRunning h = true) :
    (integrate h d).values.p0 = raiseValue .engineTime ((d.engineMs + h.interval) / 1000) d.values.p0 ∧
      (integrate h d).engineMs = heldRest .engineTime h.interval ((d.engineMs + h.interval) / 1000) d.values.p0
        ((d.engineMs + h.interval) % 1000) := by
  rw [integrate_eq, integrateSample_run hs, addEngineTime, if_pos hr]
  exact ⟨rfl, rfl⟩

theorem integrate_engineTime_stays (hn : h.slewChange = none ∨ engineRunning h = false) :
    (integrate h d).values.p0 = d.values.p0 ∧ (integrate h d).engineMs = d.engineMs := by
  rw [integrate_eq]
  by_cases hs : h.slewChange = none
  · rw [integrateSample_restart hs]
    exact ⟨rfl, rfl⟩
  · rw [integrateSample_run hs, addEngineTime, if_neg (by simpa [hs] using hn)]
    exact ⟨rfl, rfl⟩

/-- LOAD_TIME while the engine runs (R129). -/
theorem integrate_loadTime (hs : h.slewChange ≠ none) (hr : engineRunning h = true) :
    let added := h.interval * loadWeight h d.ratedFuel
    let total := d.loadMs + (d.loadQuarter + added) / 4
    (integrate h d).values.p1 = raiseValue .loadTime (total / 1000) d.values.p1 ∧
      (integrate h d).loadMs = heldRest .loadTime added (total / 1000) d.values.p1 (total % 1000) ∧
      (integrate h d).loadQuarter =
        heldRest .loadTime added (total / 1000) d.values.p1 ((d.loadQuarter + added) % 4) := by
  rw [integrate_eq, integrateSample_run hs, addLoadTime, if_pos hr]
  exact ⟨rfl, rfl, rfl⟩

theorem integrate_loadTime_stays (hn : h.slewChange = none ∨ engineRunning h = false) :
    (integrate h d).values.p1 = d.values.p1 ∧ (integrate h d).loadMs = d.loadMs ∧
      (integrate h d).loadQuarter = d.loadQuarter := by
  rw [integrate_eq]
  by_cases hs : h.slewChange = none
  · rw [integrateSample_restart hs]
    exact ⟨rfl, rfl, rfl⟩
  · rw [integrateSample_run hs, addLoadTime, if_neg (by simpa [hs] using hn)]
    exact ⟨rfl, rfl, rfl⟩

/-- FUEL while its channel is valid (R130). -/
theorem integrate_fuel (hs : h.slewChange ≠ none) (hv : h.fuelValid = true) :
    let added := h.fuel.toNat * h.interval
    (integrate h d).values.p2 = raiseValue .fuel ((added + d.fuelRest) / 36000) d.values.p2 ∧
      (integrate h d).fuelRest =
        heldRest .fuel added ((added + d.fuelRest) / 36000) d.values.p2 ((added + d.fuelRest) % 36000) := by
  rw [integrate_eq, integrateSample_run hs, addFuel, if_pos hv]
  exact ⟨rfl, rfl⟩

theorem integrate_fuel_stays (hn : h.slewChange = none ∨ h.fuelValid = false) :
    (integrate h d).values.p2 = d.values.p2 ∧ (integrate h d).fuelRest = d.fuelRest := by
  rw [integrate_eq]
  by_cases hs : h.slewChange = none
  · rw [integrateSample_restart hs]
    exact ⟨rfl, rfl⟩
  · rw [integrateSample_run hs, addFuel, if_neg (by simpa [hs] using hn)]
    exact ⟨rfl, rfl⟩

/-- SLEW at a solve that is no restart solve and raised no STEP (R131). -/
theorem integrate_slew {c : Int} (hs : h.slewChange = some c) (hn : h.step = false) :
    (integrate h d).values.p3 = raiseValue .slew c.natAbs d.values.p3 := by
  have size : (magnitude c).toNat = c.natAbs := by
    rw [magnitude_eq_abs, Int.abs_eq_natAbs, Int.toNat_natCast]
  rw [integrate_eq, integrateSample_run (by simp [hs])]
  simp only [addSlew, hs, hn, size]
  rfl

theorem integrate_slew_stays (hn : h.slewChange = none ∨ h.step = true) :
    (integrate h d).values.p3 = d.values.p3 := by
  rw [integrate_eq]
  by_cases hs : h.slewChange = none
  · rw [integrateSample_restart hs]
  · obtain ⟨c, hc⟩ := Option.ne_none_iff_exists'.1 hs
    rw [integrateSample_run hs]
    simp [addSlew, hc, hn.resolve_left hs]

/-- A completed cycle adds 1 to CYCLES (R132). -/
theorem integrate_cycles (hc : h.completed ≠ none) :
    (integrate h d).values.p4 = raiseValue .cycles 1 d.values.p4 := by
  obtain ⟨payload, hp⟩ := Option.ne_none_iff_exists'.1 hc
  rw [integrate_eq, hp]
  cases payload with
  | none => rfl
  | some kg =>
    simp only [addCompleted, addTonnes]
    split <;> rfl

theorem integrate_cycles_stays (hc : h.completed = none) : (integrate h d).values.p4 = d.values.p4 := by
  rw [integrate_eq, hc]
  rfl

/-- TONNES at a completed cycle with a payload (R132). -/
theorem integrate_tonnes {kg : Nat} (hk : 0 < kg) (hc : h.completed = some (some (kg : Int))) :
    (integrate h d).values.p5 = raiseValue .tonnes ((d.tonnesKg + kg) / 1000) d.values.p5 ∧
      (integrate h d).tonnesKg =
        heldRest .tonnes kg ((d.tonnesKg + kg) / 1000) d.values.p5 ((d.tonnesKg + kg) % 1000) := by
  rw [integrate_eq, hc, addCompleted, Int.toNat_natCast, addTonnes, if_neg (by omega)]
  exact ⟨rfl, rfl⟩

theorem integrate_tonnes_stays
    (hc : h.completed = none ∨ h.completed = some none ∨ h.completed = some (some 0)) :
    (integrate h d).values.p5 = d.values.p5 ∧ (integrate h d).tonnesKg = d.tonnesKg := by
  rw [integrate_eq]
  obtain hc | hc | hc := hc <;> (rw [hc]; exact ⟨rfl, rfl⟩)

/-- An interval of 0 leaves every remainder of time and fuel. -/
theorem integrate_rests (hi : h.interval = 0) (engine : d.engineMs < 1000) (load : d.loadMs < 1000)
    (quarter : d.loadQuarter < 4) (fuel : d.fuelRest < 36000) :
    (integrate h d).engineMs = d.engineMs ∧ (integrate h d).loadMs = d.loadMs ∧
      (integrate h d).loadQuarter = d.loadQuarter ∧ (integrate h d).fuelRest = d.fuelRest := by
  by_cases hs : h.slewChange = none
  · obtain ⟨-, ms⟩ := integrate_engineTime_stays (d := d) (.inl hs)
    obtain ⟨-, load, quarter⟩ := integrate_loadTime_stays (d := d) (.inl hs)
    obtain ⟨-, rest⟩ := integrate_fuel_stays (d := d) (.inl hs)
    exact ⟨ms, load, quarter, rest⟩
  · have time : (integrate h d).engineMs = d.engineMs ∧ (integrate h d).loadMs = d.loadMs ∧
        (integrate h d).loadQuarter = d.loadQuarter := by
      cases hr : engineRunning h with
      | true =>
        obtain ⟨-, ms⟩ := integrate_engineTime (d := d) hs hr
        obtain ⟨-, loadMs, loadQuarter⟩ := integrate_loadTime (d := d) hs hr
        simp only [hi, Nat.zero_mul, heldRest_nothing] at ms loadMs loadQuarter
        omega
      | false =>
        exact ⟨(integrate_engineTime_stays (.inr hr)).2, (integrate_loadTime_stays (.inr hr)).2⟩
    have rest : (integrate h d).fuelRest = d.fuelRest := by
      cases hv : h.fuelValid with
      | true =>
        obtain ⟨-, rest⟩ := integrate_fuel (d := d) hs hv
        simp only [hi, Nat.mul_zero, heldRest_nothing] at rest
        omega
      | false => exact (integrate_fuel_stays (.inr hv)).2
    obtain ⟨ms, loadMs, loadQuarter⟩ := time
    exact ⟨ms, loadMs, loadQuarter, rest⟩

/-- Integration leaves the duty record. -/
theorem integrate_ratedFuel : (integrate h d).ratedFuel = d.ratedFuel := by
  rw [integrate_eq]
  by_cases hs : h.slewChange = none
  · rw [integrateSample_restart hs]
  · rw [integrateSample_run hs]

/-! ## The greatest values (R133) -/

/-- An accumulator that an addition fills stands at its greatest value with its remainders at 0. -/
theorem integrate_fills :
    (h.slewChange ≠ none → engineRunning h = true →
      Fills .engineTime h.interval ((d.engineMs + h.interval) / 1000) d.values.p0 →
      (integrate h d).values.p0.value = 4294967295 ∧ (integrate h d).engineMs = 0) ∧
    (h.slewChange ≠ none → engineRunning h = true →
      let added := h.interval * loadWeight h d.ratedFuel
      Fills .loadTime added ((d.loadMs + (d.loadQuarter + added) / 4) / 1000) d.values.p1 →
      (integrate h d).values.p1.value = 4294967295 ∧ (integrate h d).loadMs = 0 ∧ (integrate h d).loadQuarter = 0) ∧
    (h.slewChange ≠ none → h.fuelValid = true →
      Fills .fuel (h.fuel.toNat * h.interval) ((h.fuel.toNat * h.interval + d.fuelRest) / 36000) d.values.p2 →
      (integrate h d).values.p2.value = 1099511627775 ∧ (integrate h d).fuelRest = 0) ∧
    (∀ c, h.slewChange = some c → h.step = false → Fills .slew c.natAbs c.natAbs d.values.p3 →
      (integrate h d).values.p3.value = 281474976710655) ∧
    (∀ kg : Nat, h.completed = some (some (kg : Int)) → Fills .tonnes kg ((d.tonnesKg + kg) / 1000) d.values.p5 →
      (integrate h d).values.p5.value = 4294967295 ∧ (integrate h d).tonnesKg = 0) := by
  refine ⟨fun hs hr full => ?_, fun hs hr full => ?_, fun hs hv full => ?_, fun c hs hn full => ?_, fun kg hc full => ?_⟩
  · obtain ⟨value, rest⟩ := integrate_engineTime (d := d) hs hr
    rw [value, rest, full.value, full.rest]
    exact ⟨rfl, rfl⟩
  · obtain ⟨value, ms, quarter⟩ := integrate_loadTime (d := d) hs hr
    rw [value, ms, quarter, full.value, full.rest, full.rest]
    exact ⟨rfl, rfl, rfl⟩
  · obtain ⟨value, rest⟩ := integrate_fuel (d := d) hs hv
    rw [value, rest, full.value, full.rest]
    exact ⟨rfl, rfl⟩
  · rw [integrate_slew hs hn, full.value]
    rfl
  · obtain ⟨value, rest⟩ := integrate_tonnes (d := d) full.1 hc
    rw [value, rest, full.value, full.rest]
    exact ⟨rfl, rfl⟩

end

/-! ## The statements -/

/-- Settles O36: the interval of a restart solve is 0, so there too the value rises by nothing; any other solve adds its
interval while the engine runs. -/
theorem engineTimeCountsRunningTime : Obligations.EngineTimeCountsRunningTime := by
  intro h d restart carried below within
  have fits : Fits .engineTime ((d.engineMs + h.interval) / 1000) d.values.p0 := ⟨below, within⟩
  refine ⟨fun running => ?_, fun stopped => ?_⟩
  · by_cases hs : h.slewChange = none
    · obtain ⟨value, rest⟩ := integrate_engineTime_stays (d := d) (.inl hs)
      rw [value, rest, restart hs]
      omega
    · obtain ⟨value, rest⟩ := integrate_engineTime (d := d) hs ((engineRunning_iff h).2 running)
      rw [value, rest, raiseValue_within within, fits.rest]
      exact ⟨rfl, rfl⟩
  · obtain ⟨value, rest⟩ := integrate_engineTime_stays (d := d) (.inr (engineRunning_stopped stopped))
    exact ⟨by rw [value], rest⟩

/-- Settles O37: as O36, with the channel's validity in place of the engine's running. -/
theorem fuelIntegratesRate : Obligations.FuelIntegratesRate := by
  intro h d restart _ carried below within
  have fits : Fits .fuel ((h.fuel.toNat * h.interval + d.fuelRest) / 36000) d.values.p2 := ⟨below, within⟩
  refine ⟨fun valid => ?_, fun invalid => ?_⟩
  · by_cases hs : h.slewChange = none
    · obtain ⟨value, rest⟩ := integrate_fuel_stays (d := d) (.inl hs)
      rw [value, rest, restart hs]
      omega
    · obtain ⟨value, rest⟩ := integrate_fuel (d := d) hs valid
      rw [value, rest, raiseValue_within within, fits.rest]
      exact ⟨rfl, rfl⟩
  · obtain ⟨value, rest⟩ := integrate_fuel_stays (d := d) (.inr invalid)
    exact ⟨by rw [value], rest⟩

/-- Settles O38, accumulator by accumulator: within the range an addition is exact, at the limit it fills. -/
theorem loadSlewAndCyclesIntegrate : Obligations.LoadSlewAndCyclesIntegrate := by
  intro h d t w ms
  refine ⟨fun hs running below within => ?_, fun hn => ?_, fun c hs hn within => ?_, integrate_slew_stays, fun hc => ?_,
    fun hc below => ?_, fun hc => integrate_tonnes_stays (.inr (.inl hc)),
    fun hc => integrate_tonnes_stays (.inr (.inr hc)), integrate_rests, fun kg hk hc below within => ?_, fun a => ?_, ?_,
    integrate_ratedFuel, integrate_handed h d⟩
  · have fits : Fits .loadTime (ms / 1000) d.values.p1 := ⟨below, within⟩
    obtain ⟨value, rest, quarter⟩ := integrate_loadTime (d := d) hs ((engineRunning_iff h).2 running)
    exact ⟨by rw [value]; exact raiseValue_within within, rest.trans (fits.rest _ _), quarter.trans (fits.rest _ _)⟩
  · exact integrate_loadTime_stays (hn.imp_right engineRunning_stopped)
  · rw [integrate_slew hs hn]
    exact raiseValue_within within
  · obtain ⟨tonnes, rest⟩ := integrate_tonnes_stays (d := d) (.inl hc)
    exact ⟨integrate_cycles_stays hc, tonnes, rest⟩
  · rw [integrate_cycles hc]
    exact raiseValue_within below
  · have fits : Fits .tonnes ((d.tonnesKg + kg) / 1000) d.values.p5 := ⟨below, within⟩
    obtain ⟨value, rest⟩ := integrate_tonnes (d := d) hk hc
    exact ⟨by rw [value]; exact raiseValue_within within, rest.trans (fits.rest _ _)⟩
  · obtain ⟨lost, value, stays⟩ := integrate_raised h d a
    exact ⟨lost, value, stays⟩
  · intro running full
    obtain ⟨engine, load, fuel, slew, tonnes⟩ := integrate_fills (h := h) (d := d)
    rw [engineRunning_iff] at engine load
    exact ⟨engine, load, fuel, slew, tonnes⟩

end Sys2Proof.Proofs
end

section
/-! SUPPORT. ACCUM_SET and ACCUM_READ at the accumulator block (O39). -/

namespace Sys2Proof.Proofs

open Sys2Proof Sys2Proof.Machine Sys2Proof.Laws

/-! ## An answer behind the notices of its step (log 13) -/

/-- A port that took its head frame, sent what it sent and then answered. -/
theorem answeredLast_reply {s u : State} {l : Link} (r : Request) (x : Result) (e : Echo)
    (ha : (portOf s l).state = .active) (h : AllOnlySend (takeHead l s) u) :
    AnsweredLast s (reply l r x e u) l (.response (requestCode r) x e) := by
  have taken : portOf (takeHead l s) l =
      { portOf s l with rx := (portOf s l).rx.tail, reserved := (portOf s l).reserved + 1 } := portOf_setPort l _ s
  obtain ⟨state, nodes, rx, reserved, overrun⟩ := taken ▸ h l
  have frame : ∀ b, frameOf (portOf u l) b = frameOf (portOf s l) b := fun b =>
    congrArg (fun n : NodePair => (⟨makeIdent (bodyPriority b) (bodyCode b) n.partner n.own, b⟩ : TxFrame)) nodes
  have answered : portOf (reply l r x e u) l = { portOf u l with
      reserved := (portOf u l).reserved - 1
      tx := (portOf u l).tx ++ [frameOf (portOf s l) (.response (requestCode r) x e)] } := by
    rw [reply, sendAnswer, portOf_setPort, offerAnswer_owed, if_pos (state.trans ha), frame]
  refine ⟨by rw [answered]; exact List.getLast?_concat, ?_, fun k hk => ?_⟩
  · rw [answered]
    exact ⟨state, nodes, rx, by simp only [reserved]; rfl, overrun⟩
  · have sent := h k
    rw [takeHead, portOf_setPort_ne l k _ s hk] at sent
    rw [reply, sendAnswer, portOf_setPort_ne l k _ u hk]
    exact sent

/-! ## ACCUM_SET (R136, R137) -/

/-- An ACCUM_SET of anything but RATED_FUEL that passes the checks of R181 is handled by the accumulator block. -/
theorem exec_accumSet {s : State} {d : Payload} (ho : Offered s .sl .accumSet d)
    (hd : ∀ v, d ≠ .accumSet (some .ratedFuel) v) :
    exec (.accumSet .sl) s = .next (serveAccumSet .sl d (takeHead .sl s)) :=
  congrArg Host.Outcome.next (takeRequest_offered ho fun f hf => by
    obtain ⟨hc, rfl⟩ := isRequest_code hf
    simp only [takerOf, hc])

theorem exec_accumSetRatedFuel {s : State} {v : Nat} (ho : Offered s .sl .accumSet (.accumSet (some .ratedFuel) v)) :
    exec (.accumSetRatedFuel .sl) s = .next (serveAccumSet .sl (.accumSet (some .ratedFuel) v) (takeHead .sl s)) :=
  congrArg Host.Outcome.next (takeRequest_offered ho fun f hf => by simp [takerOf, isRequest_code hf])

theorem exec_accumRead {s : State} {d : Payload} (ho : Offered s .sl .accumRead d) :
    exec (.accumRead .sl) s = .next (serveAccumRead .sl d (takeHead .sl s)) :=
  congrArg Host.Outcome.next (takeRequest_offered ho fun f hf => by simp [takerOf, (isRequest_code hf).1])

/-- The part with an accumulator set, before anything is handed on. -/
def withAccum (a : Accum) (w : Nat) (s : State) : State := { s with duty := accumSetTo a w s.duty }

/-- What a taken ACCUM_SET makes of the part before its answer: the value set, its basis value handed on, the SERVICE
request passed on, and a save triggered (R134, R136, R145; log 14). -/
def accumTaken (a : Accum) (w : Nat) (s : State) : State := triggerSave (syncService (handOnBasis (withAccum a w s) a))

theorem serveAccumSet_refused {l : Link} {a : Accum} {v : Nat} {s : State}
    (h : min (accumMax a) v < (accGet s.duty.values a).value) :
    serveAccumSet l (.accumSet (some (.accum a)) v) s =
      reply l .accumSet .badField (.accumSet a (min (accumMax a) v) (accGet s.duty.values a)) s := if_pos h

theorem serveAccumSet_taken {l : Link} {a : Accum} {v : Nat} {s : State}
    (h : (accGet s.duty.values a).value ≤ min (accumMax a) v) :
    serveAccumSet l (.accumSet (some (.accum a)) v) s =
      reply l .accumSet .ok (.accumSet a (min (accumMax a) v) ⟨min (accumMax a) v, false⟩)
        (accumTaken a (min (accumMax a) v) s) := if_neg (by omega)

/-- The basis value of an accumulator just set. -/
theorem basisOf_accumSetTo (a : Accum) (w : Nat) (d : Duty) : basisOf (accumSetTo a w d) a = w / unitsPer a := by
  simp [basisOf, accumSetTo]

/-- A taken ACCUM_SET: the basis value is handed on, the items are told of a changed one as they stood, the SERVICE
request follows the items, a save is in flight, and the ports only send. -/
theorem accumTaken_spec (a : Accum) (w : Nat) {s x : State} (hx : SameSchedule s x) :
    (∃ handed, (accumTaken a w s).duty = { accumSetTo a w s.duty with handed := handed } ∧
      accGet handed a = w / unitsPer a ∧ ∀ b, b ≠ a → accGet handed b = accGet s.duty.handed b) ∧
    SameSchedule (accumTaken a w s) (if w / unitsPer a = accGet s.duty.handed a then x
      else (List.range 24).foldl (reexamineItem a (w / unitsPer a)) x) ∧
    (accumTaken a w s).ladder.service = serviceWanted (accumTaken a w s).items ∧
    (accumTaken a w s).store.save.isSome = true ∧ AllOnlySend s (accumTaken a w s) := by
  obtain ⟨⟨handed, only, ha, hb⟩, told⟩ := handOnBasis_spec (withAccum a w s) a
  obtain ⟨-, -, ⟨_, _, ladder⟩, ⟨items, ring⟩, duty⟩ := syncService_spec (handOnBasis (withAccum a w s) a)
  have basis : basisOf (withAccum a w s).duty a = w / unitsPer a := basisOf_accumSetTo a w s.duty
  have same : SameSchedule (tellBasis (withAccum a w s).duty (withAccum a w s).duty.handed (withAccum a w s) a)
      (if w / unitsPer a = accGet s.duty.handed a then x
        else (List.range 24).foldl (reexamineItem a (w / unitsPer a)) x) := by
    rw [← basis]
    exact tellBasis_same _ _ a hx
  refine ⟨⟨handed, ?_, ha.trans basis, hb⟩, ⟨?_, ?_⟩, ?_, triggerSave_saving _, ?_⟩
  · rw [accumTaken, triggerSave_duty, duty, only.duty]
    rfl
  · rw [accumTaken, triggerSave_items, items, told.1, same.1]
  · rw [accumTaken, triggerSave_ring, ring, told.2, same.2]
  · rw [accumTaken, triggerSave_ladder, triggerSave_items, ladder, items]
  · have quiet : Quiet s (accumTaken a w s) :=
      (((quiet_handOnBasis _ _).trans (quiet_syncService _)).trans (quiet_triggerSave _)).behind
    exact quiet.onlySend

/-- An ACCUM_SET that leaves the basis value tells the items nothing; where the ladder holds the SERVICE request
already, only the accumulator and the save change. -/
theorem accumTaken_sameBasis {a : Accum} {w : Nat} {s : State} (hb : w / unitsPer a = accGet s.duty.handed a)
    (hs : s.ladder.service = serviceWanted s.items) : accumTaken a w s = triggerSave (withAccum a w s) := by
  have handed : handOnBasis (withAccum a w s) a = withAccum a w s :=
    if_pos ((basisOf_accumSetTo a w s.duty).trans hb)
  have synced : syncService (withAccum a w s) = withAccum a w s := if_pos hs
  rw [accumTaken, handed, synced]

/-- Settles O39: each request goes to the accumulator block, and a taken value acts as `accumTaken` says, on a state that
differs from the present one in the port alone. -/
theorem accumulatorRequestsAct : Obligations.AccumulatorRequestsAct := by
  refine ⟨fun s a v ho => ?_, fun s v ho => ?_, fun s v ho => ?_, fun s d ho => ?_⟩
  · have active := offered_active ho
    intro w
    rw [exec_accumSet ho (by simp)]
    refine ⟨fun lower => ?_, fun taken => ?_⟩
    · rw [serveAccumSet_refused (by rwa [takeHead_duty]), takeHead_duty, reply_takeHead_only _ _ _ active]
    · rw [serveAccumSet_taken (by rwa [takeHead_duty])]
      obtain ⟨⟨handed, duty, ha, hb⟩, ⟨items, ring⟩, service, saving, sends⟩ :=
        accumTaken_spec a w (s := takeHead .sl s) (x := s) ⟨takeHead_items _ s, takeHead_ring _ s⟩
      rw [takeHead_duty] at duty hb items ring
      refine ⟨_, rfl, ?_, ?_, ?_, ⟨?_, ?_⟩, ?_, ?_, answeredLast_reply _ _ _ active sends, fun same served => ?_⟩
      · rw [reply_duty, duty]
        rfl
      · rwa [reply_duty, duty]
      · rwa [reply_duty, duty]
      · rwa [reply_items]
      · rwa [reply_ring]
      · rwa [reply_ladder, reply_items]
      · rwa [reply_store]
      · have plain : accumTaken a w (takeHead .sl s) = triggerSave (withAccum a w (takeHead .sl s)) :=
          accumTaken_sameBasis (by rwa [takeHead_duty]) (by rwa [takeHead_ladder, takeHead_items])
        rw [reply_duty, plain, triggerSave_duty, reply_takeHead _ _ _ active (by rw [triggerSave_ports]; rfl),
          ← triggerSave_withPorts]
        rfl
  · rw [exec_accumSet ho (by simp)]
    exact congrArg Host.Outcome.next (reply_takeHead_only _ _ _ (offered_active ho))
  · rw [exec_accumSetRatedFuel ho, serveAccumSet]
    exact congrArg Host.Outcome.next
      (reply_markDirty .accumSet .ok _ .duty (offered_active ho) rfl (by rw [takeHead_duty]; rfl))
  · rw [exec_accumRead ho, serveAccumRead, reply_takeHead_only _ _ _ (offered_active ho), takeHead_duty]
    have present : ∀ n : Nat, decide (0 < n) = decide (n ≠ 0) := fun n => by simp [Nat.pos_iff_ne_zero]
    simp only [presenceMask, lostMask, presentValues, present, List.filter_map]
    rfl

end Sys2Proof.Proofs
end

section
/-! SUPPORT. What endures between two resets (O60): no operation lets an accumulator decrease, and none but a STAMP_READ
changes a HELD record (R133, R173). -/

namespace Sys2Proof.Proofs

open Sys2Proof Sys2Proof.Machine Sys2Proof.Laws

/-! ## The relations -/

/-- No accumulator's value decreases from `d` to `t`. -/
def NoneFalls (d t : Duty) : Prop := ∀ a : Accum, (accGet d.values a).value ≤ (accGet t.values a).value

/-- Every HELD record of `x` is the one that `y` holds. -/
def HeldStay (x y : Stamps) : Prop := ∀ k r, slotRecord x k = some r → slotRecord y k = some r

/-- From `s` to `t` no accumulator decreases and no HELD record changes. -/
structure Endures (s t : State) : Prop where
  totals : NoneFalls s.duty t.duty
  held : HeldStay s.stamps t.stamps

theorem Endures.trans {s t u : State} (h : Endures s t) (k : Endures t u) : Endures s u where
  totals a := (h.totals a).trans (k.totals a)
  held n r hr := k.held n r (h.held n r hr)

/-- A change that leaves values and slots alone. -/
theorem Endures.of_same {s t : State} (hd : t.duty.values = s.duty.values := by simp)
    (hm : t.stamps = s.stamps := by simp) : Endures s t where
  totals a := by rw [hd]
  held _ _ hr := by rwa [hm]

theorem Endures.refl (s : State) : Endures s s := .of_same rfl rfl

theorem AllRaised.noneFalls {d t : Duty} (h : AllRaised d t) : NoneFalls d t := fun a => (h a).value

theorem noneFalls_accumSetTo {a : Accum} {w : Nat} {d : Duty} (h : (accGet d.values a).value ≤ w) :
    NoneFalls d (accumSetTo a w d) := by
  intro b
  by_cases hb : b = a
  · subst hb
    rwa [accumSetTo, accGet_accSet]
  · rw [accumSetTo, accGet_accSet_ne _ _ _ _ hb]

/-- A slot's HELD record as an answer carries it, where the slot's own record stays. -/
theorem map_held {α : Type} {x y : Slot α} (h : ∀ a, x.held = some a → y.held = some a) (f : α → StampRecord)
    {r : StampRecord} (hr : x.held.map f = some r) : y.held.map f = some r := by
  obtain ⟨a, ha, rfl⟩ := Option.map_eq_some_iff.1 hr
  rw [h a ha]
  rfl

theorem heldStay_raiseStamps (l : Latch) (p : PoseResult) (e : EvalResult) (a : AidsResult) (s : State) :
    HeldStay s.stamps (raiseStamps l p e a s).stamps
  | .slewEntry, _, hr => map_held (fun _ => raiseAll_keeps _) _ hr
  | .limitBreach, _, hr => map_held (fun _ => raiseAll_keeps _) _ hr
  | .lateBraking, _, hr => map_held (fun _ => raiseAll_keeps _) _ hr
  | .solveFault, _, hr => map_held (fun _ => raiseAll_keeps _) _ hr
  | .cycle, _, hr => map_held (fun _ => raiseAll_keeps _) _ hr
  | .sampleLoss, _, hr | .storeFault, _, hr => hr

theorem heldStay_raiseLoss (limit : Nat) (s : State) : HeldStay s.stamps (raiseLoss limit s).stamps
  | .sampleLoss, _, hr => map_held (fun _ => raiseSlot_keeps _) _ hr
  | .slewEntry, _, hr | .limitBreach, _, hr | .lateBraking, _, hr | .solveFault, _, hr | .cycle, _, hr
  | .storeFault, _, hr => hr

theorem heldStay_raiseStoreFault (o : FaultOccasion) (x : RecordId) (s : State) :
    HeldStay s.stamps (raiseStoreFault o x s).stamps
  | .storeFault, _, hr => map_held (fun _ => raiseSlot_keeps _) _ hr
  | .slewEntry, _, hr | .limitBreach, _, hr | .lateBraking, _, hr | .solveFault, _, hr | .cycle, _, hr
  | .sampleLoss, _, hr => hr

theorem endures_raiseStoreFault (o : FaultOccasion) (x : RecordId) (s : State) : Endures s (raiseStoreFault o x s) :=
  ⟨fun _ => le_rfl, heldStay_raiseStoreFault o x s⟩

/-! ## What the shared operations leave of accumulators and slots -/

@[simp] theorem ladderEvent_duty (L : Ladder) (drops : List Drop) (s : State) : (ladderEvent L drops s).duty = s.duty := by
  rw [(ladderEvent_spec L drops s).1]
  rfl

@[simp] theorem ladderEvent_stamps (L : Ladder) (drops : List Drop) (s : State) :
    (ladderEvent L drops s).stamps = s.stamps := by
  rw [(ladderEvent_spec L drops s).1]
  rfl

@[simp] theorem produceNotice_duty (n : Notice) (s : State) : (produceNotice n s).duty = s.duty :=
  ((onSchedule_produceNotice n).only s).duty

@[simp] theorem produceNotice_stamps (n : Notice) (s : State) : (produceNotice n s).stamps = s.stamps :=
  ((onSchedule_produceNotice n).only s).stamps

@[simp] theorem handOnBasis_stamps (s : State) (a : Accum) : (handOnBasis s a).stamps = s.stamps := by
  obtain ⟨⟨_, only, -⟩, -⟩ := handOnBasis_spec s a
  exact only.stamps

@[simp] theorem advanceReader_duty (r : Reader) (p : Nat) (s : State) : (advanceReader r p s).duty = s.duty :=
  ((onSchedule_releaseFrom (heldCount s.ring)).only
    { s with ring := setReader r (advanced (readerOf s.ring r) p) s.ring }).duty

@[simp] theorem advanceReader_stamps (r : Reader) (p : Nat) (s : State) : (advanceReader r p s).stamps = s.stamps :=
  ((onSchedule_releaseFrom (heldCount s.ring)).only
    { s with ring := setReader r (advanced (readerOf s.ring r) p) s.ring }).stamps

theorem EditsOnly.endures {s t : State} (h : EditsOnly s t) : Endures s t := .of_same (by rw [h.duty]) h.stamps

/-- A taken request endures when its owner does. -/
theorem endures_takeRequest {me : Instr} {l : Link} {serve : Payload → State → State}
    (h : ∀ d s, Endures s (serve d s)) (s : State) : Endures s (takeRequest me l serve s) := by
  have taken : Endures s (takeHead l s) := .of_same
  obtain k | ⟨b, k⟩ | ⟨f, -, k⟩ := takeRequest_cases me l serve s <;> rw [k]
  · exact .refl s
  · exact taken.trans .of_same
  · exact taken.trans (h _ _)

/-! ## The requests: each branch answers, and but for ACCUM_SET leaves accumulators and slots alone -/

section
variable (l : Link) (d : Payload) (s : State)

theorem endures_servePlace (r : Request) (src : Source) (rpm : Int) (duration wait : Option Nat) :
    Endures s (servePlace l r src rpm duration wait s) := by
  unfold servePlace
  exact .of_same

theorem endures_serveWithdraw (r : Request) (src : Source) : Endures s (serveWithdraw l r src s) := by
  unfold serveWithdraw
  split <;> exact .of_same

theorem endures_setMode : Endures s (serveSetMode l d s) := by
  unfold serveSetMode
  split
  · split
    · exact endures_servePlace l s _ _ _ _ _
    · exact endures_serveWithdraw l s _ _
  · exact .of_same

theorem endures_touchIdle : Endures s (serveTouchIdle l d s) := by
  unfold serveTouchIdle
  split
  · exact endures_servePlace l s _ _ _ _ _
  · exact endures_serveWithdraw l s _ _
  · exact .of_same

theorem endures_regen : Endures s (serveRegen l d s) := by
  unfold serveRegen
  split
  · exact endures_servePlace l s _ _ _ _ _
  · exact endures_serveWithdraw l s _ _
  · exact .of_same

theorem endures_test : Endures s (serveTest l d s) := by
  unfold serveTest
  split
  · split
    · exact .of_same
    · exact endures_servePlace l s _ _ _ _ _
  · exact endures_servePlace l s _ _ _ _ _
  · exact endures_serveWithdraw l s _ _
  · exact endures_serveWithdraw l s _ _
  · exact .of_same

theorem endures_setLadder : Endures s (serveSetLadder l d s) := by
  unfold serveSetLadder
  split
  · split <;> exact .of_same
  · exact .of_same

theorem endures_setEconomy : Endures s (serveSetEconomy l d s) := by
  unfold serveSetEconomy
  split <;> exact .of_same

theorem endures_ack : Endures s (serveAck l d s) := by
  unfold serveAck serveAck.serveAckOn
  repeat' split
  all_goals exact .of_same

theorem endures_serviceDone : Endures s (serveServiceDone l d s) := by
  unfold serveServiceDone
  repeat' split
  all_goals exact .of_same

theorem endures_itemDefine : Endures s (serveItemDefine l d s) := by
  unfold serveItemDefine
  repeat' split
  all_goals exact .of_same

theorem endures_itemRetire : Endures s (serveItemRetire l d s) := by
  unfold serveItemRetire sendRetired
  repeat' split
  all_goals exact .of_same

theorem endures_ringAdvance : Endures s (serveRingAdvance l d s) := by
  unfold serveRingAdvance
  split
  · dsimp only
    split <;> exact .of_same
  · exact .of_same

theorem endures_ringClearLost : Endures s (serveRingClearLost l d s) := by
  unfold serveRingClearLost
  split
  · dsimp only
    split <;> exact .of_same
  · exact .of_same

/-- ACCUM_SET takes no value below the present one (R136). -/
theorem endures_accumSet : Endures s (serveAccumSet l d s) := by
  have taken {a : Accum} {w : Nat} (h : (accGet s.duty.values a).value ≤ w) : Endures s (accumTaken a w s) := by
    obtain ⟨⟨_, duty, -⟩, -⟩ := accumTaken_spec a w (s := s) (x := s) ⟨rfl, rfl⟩
    refine ⟨?_, fun _ _ hr => ?_⟩
    · rw [duty]
      exact noneFalls_accumSetTo h
    · rw [accumTaken, triggerSave_stamps, syncService_stamps, handOnBasis_stamps]
      exact hr
  unfold serveAccumSet
  split
  · dsimp only
    split
    · exact .of_same
    · rename_i low
      exact (taken (Nat.le_of_not_lt low)).trans (.of_same (by rw [reply_duty]; rfl) (by rw [reply_stamps]; rfl))
  · exact .of_same
  · exact .of_same

theorem endures_setSolver : Endures s (serveSetSolver l d s) := by
  unfold serveSetSolver
  split
  · split <;> exact .of_same
  · exact .of_same

theorem endures_takeFlag (r : Request) (q : FlagRequest) : Endures s (takeFlag l r q d s) := by
  unfold takeFlag queueFlag
  split
  · exact .of_same
  · split <;> exact .of_same

theorem endures_clearFlags : Endures s (serveClearFlags l d s) := by
  unfold serveClearFlags
  split
  · split
    · exact .of_same
    · exact endures_takeFlag l _ s _ _
  · exact .of_same

theorem endures_setAids : Endures s (serveSetAids l d s) := by
  unfold serveSetAids
  repeat' split
  all_goals exact .of_same

theorem endures_setOutputPeriod : Endures s (serveSetOutputPeriod l d s) := by
  unfold serveSetOutputPeriod
  split <;> exact .of_same

theorem endures_restart : Endures s (serveRestart l d s) := by
  unfold serveRestart acceptRestart placeNodes
  repeat' split
  all_goals exact .of_same

end

end Sys2Proof.Proofs
end

section
/-! SUPPORT. Every command that does not reset the part lets no accumulator decrease, and every such command but STAMP_READ
keeps the HELD records (O60). -/

namespace Sys2Proof.Proofs

open Sys2Proof Sys2Proof.Machine Sys2Proof.Laws

/-- The command answers a state to which accumulators and HELD records endure. -/
def AnswersEnduring (c : Instr) (s : State) : Prop := ∃ t, exec c s = .next t ∧ Endures s t

section
variable {s : State}

/-! ## Links and samples -/

theorem answersEnduring_frameReceived {l : Link} {f : RxFrame} : AnswersEnduring (.frameReceived l f) s := by
  simp only [AnswersEnduring, exec, execFrameReceived]
  split
  · exact ⟨_, rfl, .of_same⟩
  · exact ⟨s, rfl, .refl s⟩

theorem answersEnduring_frameTransmitted {l : Link} : AnswersEnduring (.frameTransmitted l) s := by
  simp only [AnswersEnduring, exec, execFrameTransmitted]
  split
  · exact ⟨_, rfl, .of_same⟩
  · exact ⟨s, rfl, .refl s⟩

theorem answersEnduring_busOff {l : Link} : AnswersEnduring (.busOff l) s := by
  simp only [AnswersEnduring, exec, execBusOff, forgetAnswers]
  split
  · exact ⟨_, rfl, .of_same⟩
  · exact ⟨s, rfl, .refl s⟩

theorem answersEnduring_sample {l : Link} : AnswersEnduring (.sample l) s := by
  have taken : Endures s (takeSampleFrame .ml s) := by
    unfold takeSampleFrame
    split
    · exact .refl s
    · split
      · split <;> exact .of_same
      · exact .refl s
  cases l with
  | ml => exact ⟨_, rfl, taken⟩
  | cl => exact ⟨_, rfl, endures_takeRequest (fun _ => .refl) s⟩
  | sl => exact ⟨_, rfl, endures_takeRequest (fun _ => .refl) s⟩

/-! ## The stages of a solve -/

theorem answersEnduring_stagePose : AnswersEnduring .stagePose s := by
  simp only [AnswersEnduring, exec, execStagePose]
  split
  · exact ⟨_, rfl, .of_same rfl rfl⟩
  · exact ⟨s, rfl, .refl s⟩

theorem answersEnduring_stageEvaluate : AnswersEnduring .stageEvaluate s := by
  have evaluated (l : Latch) (p : PoseResult) : Endures s (stageEvaluate l p s) := by
    unfold stageEvaluate
    split <;> exact .of_same rfl rfl
  simp only [AnswersEnduring, exec, execStageEvaluate]
  split
  · exact ⟨_, rfl, evaluated _ _⟩
  · exact ⟨s, rfl, .refl s⟩

theorem answersEnduring_stageAids : AnswersEnduring .stageAids s := by
  simp only [AnswersEnduring, exec, execStageAids]
  split
  · exact ⟨_, rfl, .of_same⟩
  · exact ⟨s, rfl, .refl s⟩

/-- A completion integrates the solve and raises its stamps; the finish behind it touches neither (R127, R175). -/
theorem answersEnduring_solveCompletion {o : CompletionOrder} : AnswersEnduring (.solveCompletion o) s := by
  cases ended : s.solver.solve with
  | finished l p e a =>
    have hand := handOffs_spec o l p e a s
    have finish := finish_spec o.edits (handOffs o l p e a s)
    obtain ⟨handed, duty, -⟩ := hand.duty
    refine ⟨_, exec_solveCompletion ended o, ?_, ?_⟩
    · rw [finish.duty, duty]
      exact (integrate_raised (dutyOf l p a) s.duty).noneFalls
    · rw [finish.stamps, hand.stamps]
      exact heldStay_raiseStamps l p e a s
  | _ => exact ⟨s, by simp only [exec, execSolveCompletion, ended], .refl s⟩

/-! ## Timers -/

/-- Sample loss raises its stamp (R6). -/
theorem answersEnduring_staleTimerExpiry : AnswersEnduring .staleTimerExpiry s := by
  have lost (limit : Nat) (t : State) : Endures t (sampleLoss limit t) := by
    have raised : Endures t (raiseLoss limit (losePose (staleIntake t))) :=
      ⟨fun _ => le_rfl, heldStay_raiseLoss limit (losePose (staleIntake t))⟩
    unfold sampleLoss ladderSampleLoss returnAid
    exact raised.trans .of_same
  simp only [AnswersEnduring, exec, execStaleTimerExpiry]
  split
  · exact ⟨s, rfl, .refl s⟩
  · split
    · exact ⟨_, rfl, Endures.trans (t := elapse _ s) .of_same (lost _ _)⟩
    · exact ⟨s, rfl, .refl s⟩

theorem answersEnduring_idleTimerExpiry : AnswersEnduring .idleTimerExpiry s := by
  simp only [AnswersEnduring, exec, execIdleTimerExpiry]
  split
  · exact ⟨s, rfl, .refl s⟩
  · exact ⟨_, rfl, .of_same⟩

theorem answersEnduring_shutdownTimerExpiry : AnswersEnduring .shutdownTimerExpiry s := by
  simp only [AnswersEnduring, exec, execShutdownTimerExpiry]
  split
  · exact ⟨s, rfl, .refl s⟩
  · exact ⟨_, rfl, .of_same⟩

theorem answersEnduring_durationExpiry : AnswersEnduring .durationExpiry s := by
  have expired (t : State) : Endures t (expireActive t) := by
    unfold expireActive
    split <;> exact .of_same
  simp only [AnswersEnduring, exec, execDurationExpiry]
  split
  · exact ⟨s, rfl, .refl s⟩
  · exact ⟨_, rfl, Endures.trans (t := elapse _ s) .of_same (expired _)⟩

theorem answersEnduring_waitLimitExpiry {src : Source} : AnswersEnduring (.waitLimitExpiry src) s := by
  simp only [AnswersEnduring, exec, execWaitLimitExpiry]
  split
  · exact ⟨s, rfl, .refl s⟩
  · exact ⟨_, rfl, .of_same⟩

theorem answersEnduring_outputPeriodExpiry : AnswersEnduring .outputPeriodExpiry s := by
  simp only [AnswersEnduring, exec, execOutputPeriodExpiry]
  split
  · exact ⟨s, rfl, .refl s⟩
  · exact ⟨_, rfl, .of_same⟩

theorem answersEnduring_cabViewExpiry : AnswersEnduring .cabViewExpiry s := by
  simp only [AnswersEnduring, exec, execCabViewExpiry]
  split
  · exact ⟨s, rfl, .refl s⟩
  · exact ⟨_, rfl, .of_same⟩

/-! ## Saves and the examination of the image -/

theorem answersEnduring_saveTimerExpiry : AnswersEnduring .saveTimerExpiry s := by
  simp only [AnswersEnduring, exec, execSaveTimerExpiry]
  split
  · exact ⟨s, rfl, .refl s⟩
  · exact ⟨_, rfl, .of_same⟩

/-- A mismatch raises STORE_FAULT (R188). -/
theorem answersEnduring_saveRecordReadback {mismatch : Bool} : AnswersEnduring (.saveRecordReadback mismatch) s := by
  have written (v : Save) (r : SnapRecord) : Endures s (writeBack mismatch v r s) := by
    unfold writeBack spoilRecord
    dsimp only
    split
    · refine Endures.trans ?_ (endures_raiseStoreFault _ _ _)
      split <;> exact .of_same
    · exact .of_same
  simp only [AnswersEnduring, exec, execSaveRecordReadback]
  split
  · split
    · exact ⟨_, rfl, written _ _⟩
    · exact ⟨s, rfl, .refl s⟩
  · exact ⟨s, rfl, .refl s⟩

/-- The completion of a save that is no restart save. -/
theorem answersEnduring_saveCompletion (h : resets .saveCompletion s = false) : AnswersEnduring .saveCompletion s := by
  simp only [AnswersEnduring, exec, execSaveCompletion]
  split
  · rename_i v hv
    have plain : ¬v.isRestart = true := by simpa [resets, hv] using h
    have told : Endures s (sendSaveDone v s) := by
      unfold sendSaveDone
      split
      · exact .of_same
      · exact .refl s
    split
    · refine ⟨_, rfl, told.trans ?_⟩
      rw [afterSave, if_neg plain]
      split <;> exact .of_same rfl rfl
    · exact ⟨s, rfl, .refl s⟩
  · exact ⟨s, rfl, .refl s⟩

/-- A record that fails its check raises STORE_FAULT (R186). -/
theorem answersEnduring_loadRecordExamined : AnswersEnduring .loadRecordExamined s := by
  have raised (r : RecordId) : Endures s (if failsCheck s.store.image r then raiseStoreFault .load r s else s) := by
    split
    · exact endures_raiseStoreFault _ _ s
    · exact .refl s
  have examined (r : RecordId) : Endures s (examineRecord r s) := by
    unfold examineRecord
    dsimp only
    split <;> exact (raised r).trans (.of_same rfl rfl)
  simp only [AnswersEnduring, exec, execLoadRecordExamined]
  split
  · exact ⟨_, rfl, examined _⟩
  · exact ⟨s, rfl, .refl s⟩

end

/-! ## Every command -/

/-- Accumulators and HELD records endure every command but the resets and STAMP_READ. -/
theorem exec_endures (s : State) : (c : Instr) → resets c s = false → (∀ l, c ≠ .stampRead l) → AnswersEnduring c s
  | .powerOnReset _, h, _ | .loadCompletion, h, _ => nomatch h
  | .stampRead l, _, h => absurd rfl (h l)
  | .loadRecordExamined, _, _ => answersEnduring_loadRecordExamined
  | .frameReceived _ _, _, _ => answersEnduring_frameReceived
  | .frameTransmitted _, _, _ => answersEnduring_frameTransmitted
  | .busOff _, _, _ => answersEnduring_busOff
  | .busOffRecovery _, _, _ => ⟨_, rfl, .of_same⟩
  | .unknownRequest _, _, _ => ⟨_, rfl, endures_takeRequest (fun _ => .refl) s⟩
  | .sample _, _, _ => answersEnduring_sample
  | .stagePose, _, _ => answersEnduring_stagePose
  | .stageEvaluate, _, _ => answersEnduring_stageEvaluate
  | .stageAids, _, _ => answersEnduring_stageAids
  | .solveCompletion _, _, _ => answersEnduring_solveCompletion
  | .staleTimerExpiry, _, _ => answersEnduring_staleTimerExpiry
  | .idleTimerExpiry, _, _ => answersEnduring_idleTimerExpiry
  | .shutdownTimerExpiry, _, _ => answersEnduring_shutdownTimerExpiry
  | .durationExpiry, _, _ => answersEnduring_durationExpiry
  | .waitLimitExpiry _, _, _ => answersEnduring_waitLimitExpiry
  | .outputPeriodExpiry, _, _ => answersEnduring_outputPeriodExpiry
  | .cabViewExpiry, _, _ => answersEnduring_cabViewExpiry
  | .saveTimerExpiry, _, _ => answersEnduring_saveTimerExpiry
  | .saveRecordReadback _, _, _ => answersEnduring_saveRecordReadback
  | .saveCompletion, h, _ => answersEnduring_saveCompletion h
  | .keyOff _, _, _ => ⟨_, rfl, endures_takeRequest (fun _ _ => by unfold serveKeyOff; exact .of_same) s⟩
  | .regenDemandPlace l, _, _ | .regenDemandWithdraw l, _, _ => ⟨_, rfl, endures_takeRequest (endures_regen l) s⟩
  | .statusQuery _, _, _ => ⟨_, rfl, endures_takeRequest (fun _ _ => by unfold serveStatusQuery; exact .of_same) s⟩
  | .identify _, _, _ => ⟨_, rfl, endures_takeRequest (fun _ _ => by unfold serveIdentify; exact .of_same) s⟩
  | .setMode l, _, _ | .setModeOff l, _, _ => ⟨_, rfl, endures_takeRequest (endures_setMode l) s⟩
  | .touchIdleOn l, _, _ | .touchIdleOff l, _, _ => ⟨_, rfl, endures_takeRequest (endures_touchIdle l) s⟩
  | .zoneEditWrite l, _, _ | .zoneEditDelete l, _, _ | .zoneEditSuspend l, _, _ | .zoneEditResume l, _, _ =>
    ⟨_, rfl, (editsOnly_takeRequest (editsOnly_serveZoneEdit l) s).endures⟩
  | .setGradeSet l, _, _ | .setGradeClear l, _, _ =>
    ⟨_, rfl, (editsOnly_takeRequest (editsOnly_serveSetGrade l) s).endures⟩
  | .setGeometry l, _, _ => ⟨_, rfl, (editsOnly_takeRequest (editsOnly_serveSetGeometry l) s).endures⟩
  | .ackItem l, _, _ => ⟨_, rfl, endures_takeRequest (endures_ack l) s⟩
  | .ringRead _, _, _ => ⟨_, rfl, endures_takeRequest (fun _ _ => by unfold serveRingRead; exact .of_same) s⟩
  | .ringAdvance l, _, _ => ⟨_, rfl, endures_takeRequest (endures_ringAdvance l) s⟩
  | .ringClearLost l, _, _ => ⟨_, rfl, endures_takeRequest (endures_ringClearLost l) s⟩
  | .setSolver l, _, _ => ⟨_, rfl, endures_takeRequest (endures_setSolver l) s⟩
  | .readFlags l, _, _ => ⟨_, rfl, endures_takeRequest (fun d t => endures_takeFlag l d t _ _) s⟩
  | .clearFlags l, _, _ => ⟨_, rfl, endures_takeRequest (endures_clearFlags l) s⟩
  | .setLadder l, _, _ => ⟨_, rfl, endures_takeRequest (endures_setLadder l) s⟩
  | .testDemandPlace l, _, _ | .testDemandWithdraw l, _, _ => ⟨_, rfl, endures_takeRequest (endures_test l) s⟩
  | .setEconomy l, _, _ => ⟨_, rfl, endures_takeRequest (endures_setEconomy l) s⟩
  | .setAidsThresholds l, _, _ | .setAidsTable l, _, _ => ⟨_, rfl, endures_takeRequest (endures_setAids l) s⟩
  | .itemDefine l, _, _ => ⟨_, rfl, endures_takeRequest (endures_itemDefine l) s⟩
  | .serviceDone l, _, _ => ⟨_, rfl, endures_takeRequest (endures_serviceDone l) s⟩
  | .itemRetire l, _, _ => ⟨_, rfl, endures_takeRequest (endures_itemRetire l) s⟩
  | .accumRead _, _, _ => ⟨_, rfl, endures_takeRequest (fun _ _ => by unfold serveAccumRead; exact .of_same) s⟩
  | .accumSet l, _, _ | .accumSetRatedFuel l, _, _ => ⟨_, rfl, endures_takeRequest (endures_accumSet l) s⟩
  | .setOutputPeriod l, _, _ => ⟨_, rfl, endures_takeRequest (endures_setOutputPeriod l) s⟩
  | .restart l, _, _ => ⟨_, rfl, endures_takeRequest (endures_restart l) s⟩

/-- A STAMP_READ empties a slot and leaves the accumulators. -/
theorem exec_stampRead_duty (l : Link) (s : State) : ∃ t, exec (.stampRead l) s = .next t ∧ t.duty = s.duty := by
  have served (d : Payload) (t : State) : (serveStampRead l d t).duty = t.duty := by
    unfold serveStampRead
    split <;> simp
  refine ⟨_, rfl, ?_⟩
  obtain k | ⟨b, k⟩ | ⟨f, -, k⟩ := takeRequest_cases (.stampRead l) l (serveStampRead l) s <;> rw [k]
  · simp
  · rw [served, takeHead_duty]

/-- Settles O60: the accumulators endure every command between two resets, HELD records every one but STAMP_READ. -/
theorem totalsAndHeldStampsEndure : Obligations.TotalsAndHeldStampsEndure := by
  intro c s t ht hr
  by_cases read : ∃ l, c = .stampRead l
  · obtain ⟨l, rfl⟩ := read
    obtain ⟨u, hu, duty⟩ := exec_stampRead_duty l s
    obtain rfl : u = t := by simpa [hu] using ht
    exact ⟨fun a => by rw [duty], fun other => absurd rfl (other l)⟩
  · have other : ∀ l, c ≠ .stampRead l := not_exists.1 read
    obtain ⟨u, hu, k⟩ := exec_endures s c hr other
    obtain rfl : u = t := by simpa [hu] using ht
    exact ⟨k.totals, fun _ => k.held⟩

end Sys2Proof.Proofs
end

section
/-! SUPPORT. SET_OUTPUT_PERIOD, STATUS_QUERY and IDENTIFY (O46), and the reports that clear an overrun flag. -/

namespace Sys2Proof.Proofs

open Sys2Proof Sys2Proof.Machine Sys2Proof.Laws

/-! ## SET_OUTPUT_PERIOD (R167) -/

theorem takePeriod_eq (ms : Int) : takePeriod ms = (max 10 (min 100 ms)).toNat :=
  congrArg Int.toNat (clamp_eq (by decide) ms)

/-- A SET_OUTPUT_PERIOD that passes the checks of R181 is handled by the output set. -/
theorem exec_setOutputPeriod {s : State} {d : Payload} (ho : Offered s .sl .setOutputPeriod d) :
    exec (.setOutputPeriod .sl) s = .next (serveSetOutputPeriod .sl d (takeHead .sl s)) :=
  congrArg Host.Outcome.next (takeRequest_offered ho fun f hf => by simp [takerOf, (isRequest_code hf).1])

/-! ## Reports of the overrun flag (R168, R180, R185) -/

@[simp] theorem takeHead_overrun (l : Link) (s : State) :
    (portOf (takeHead l s) l).overrun = (portOf s l).overrun := by simp [takeHead]

@[simp] theorem takeHead_nodes (l : Link) (s : State) : (portOf (takeHead l s) l).nodes = (portOf s l).nodes := by
  simp [takeHead]

/-- The overrun flag may be cleared before the head frame is taken or after. -/
theorem clearOverrun_takeHead (l : Link) (s : State) : clearOverrun l (takeHead l s) = takeHead l (clearOverrun l s) := by
  simp [clearOverrun, takeHead]

/-- A report that clears the overrun flag, given after the head frame was taken. -/
theorem reply_clearOverrun {s : State} {l : Link} (r : Request) (x : Result) (e : Echo)
    (ha : (portOf s l).state = .active) :
    reply l r x e (clearOverrun l (takeHead l s)) = answer l r x e (clearOverrun l s) := by
  rw [clearOverrun_takeHead, reply_takeHead_only r x e (by simpa [clearOverrun] using ha)]

theorem exec_statusQuery {s : State} {l : Link} {d : Payload} (ho : Offered s l .statusQuery d) :
    exec (.statusQuery l) s = .next (serveStatusQuery l d (takeHead l s)) :=
  congrArg Host.Outcome.next (takeRequest_offered ho fun f hf => by simp [takerOf, (isRequest_code hf).1])

theorem exec_identify {s : State} {l : Link} {d : Payload} (ho : Offered s l .identify d) :
    exec (.identify l) s = .next (serveIdentify l d (takeHead l s)) :=
  congrArg Host.Outcome.next (takeRequest_offered ho fun f hf => by simp [takerOf, (isRequest_code hf).1])

/-- Settles O46: the period as clamped is marked behind the taken frame; both reports read what the taking of their frame
leaves alone. -/
theorem outputPeriodStatusAndIdentify : Obligations.OutputPeriodStatusAndIdentify := by
  refine ⟨fun s ms ho => ?_, fun s l d => ⟨fun ho => ?_, fun ho => ?_⟩⟩
  · rw [exec_setOutputPeriod ho, serveSetOutputPeriod, takePeriod_eq]
    exact congrArg Host.Outcome.next
      (reply_markDirty .setOutputPeriod .ok _ .outputPeriod (offered_active ho) rfl (by rw [takeHead_output]; rfl))
  · rw [exec_statusQuery ho, serveStatusQuery, reply_clearOverrun _ _ _ (offered_active ho), takeHead_overrun,
      takeHead_part, takeHead_output, takeHead_solver]
    rfl
  · rw [exec_identify ho, serveIdentify, reply_clearOverrun _ _ _ (offered_active ho), takeHead_overrun, takeHead_nodes,
      takeHead_part]
    rfl

end Sys2Proof.Proofs
end

section
/-! SUPPORT. The two periodic frames OUTPUT and CAB_VIEW (O45): when a port takes one, and the item summary of R170. -/

namespace Sys2Proof.Proofs

open Sys2Proof Sys2Proof.Machine Sys2Proof.Laws

/-! ## Periodic frames (R182, R183) -/

/-- A periodic frame enters the queue of an ACTIVE port with a free place, and is discarded at any other. -/
theorem offerPeriodic_eq (p : Port) (b : TxBody) :
    offerPeriodic p b = if p.state = .active ∧ p.tx.length + p.reserved < 8 then { p with tx := p.tx ++ [frameOf p b] }
      else p :=
  if_congr (and_congr_right' decide_eq_true_iff) rfl rfl

/-! ## OUTPUT_PERIOD_EXPIRY (R164) -/

theorem exec_outputPeriodExpiry {s : State} {n : Nat} (h : s.output.periodTimer = some n) :
    exec .outputPeriodExpiry s = .next (transferOutput (elapse n s)) := by
  simp only [exec, execOutputPeriodExpiry, h]

theorem exec_outputPeriodExpiry_stopped {s : State} (h : s.output.periodTimer = none) :
    exec .outputPeriodExpiry s = .next s := by
  simp only [exec, execOutputPeriodExpiry, h]

/-! ## CAB_VIEW_EXPIRY (R169) -/

theorem exec_cabViewExpiry {s : State} {n : Nat} (h : s.output.cabTimer = some n) :
    exec .cabViewExpiry s = .next (sendCabView (elapse n s)) := by
  simp only [exec, execCabViewExpiry, h]

theorem exec_cabViewExpiry_stopped {s : State} (h : s.output.cabTimer = none) : exec .cabViewExpiry s = .next s := by
  simp only [exec, execCabViewExpiry, h]

/-- CAB_VIEW carries nothing that the passing of time changes. -/
theorem cabView_elapse (n : Nat) (s : State) : cabView (elapse n s) = cabView s := rfl

/-- The pose fields are shown at GOOD and DEGRADED (R170). -/
theorem poseShown_iff (p : PoseRecord) : poseShown p = true ↔ p.quality = .good ∨ p.quality = .degraded := by
  unfold poseShown
  cases p.quality <;> decide

/-! ## The highest rank (R170) -/

theorem viewRank_eq_none_iff (st : ItemState) : viewRank st = none ↔ st = .empty ∨ st = .retiring := by
  cases st <;> decide

/-- A rank names the one state that holds it. -/
theorem rankState_of_viewRank {st : ItemState} {r : Nat} (h : viewRank st = some r) : rankState r = st := by
  cases st <;> cases h <;> rfl

/-- The ranks that a list of items holds. -/
def heldRanks (items : List Item) : List Nat := items.filterMap fun i => viewRank i.state

theorem mem_heldRanks {items : List Item} {r : Nat} :
    r ∈ heldRanks items ↔ ∃ i ∈ items, viewRank i.state = some r := List.mem_filterMap

/-- The fold of the model, from any rank, ends at the greater of that rank and the greatest one held. -/
theorem foldl_maxRank (items : List Item) (r : Option Nat) :
    items.foldl (fun r i => maxRank r (viewRank i.state)) r = maxRank r (heldRanks items).max? := by
  induction items generalizing r with
  | nil => cases r <;> rfl
  | cons i items ih =>
    rw [List.foldl_cons, ih]
    cases held : viewRank i.state with
    | none =>
      have same : heldRanks (i :: items) = heldRanks items := List.filterMap_cons_none held
      rw [same]
      cases r <;> rfl
    | some a =>
      have added : heldRanks (i :: items) = a :: heldRanks items := List.filterMap_cons_some held
      rw [added, List.max?_cons]
      cases r <;> cases (heldRanks items).max? <;> simp [maxRank, max_assoc]

theorem highestRank_eq_max? (items : List Item) : highestRank items = (heldRanks items).max? := foldl_maxRank items none

/-- No rank is the highest where every item is EMPTY or RETIRING. -/
theorem highestRank_eq_none_iff (items : List Item) :
    highestRank items = none ↔ ∀ i ∈ items, i.state = .empty ∨ i.state = .retiring := by
  simp only [highestRank_eq_max?, List.max?_eq_none_iff, heldRanks, List.filterMap_eq_nil_iff, viewRank_eq_none_iff]

/-- The highest rank is held by an item, and no item holds a higher one. -/
theorem highestRank_eq_some_iff (items : List Item) (r : Nat) :
    highestRank items = some r ↔
      (∃ i ∈ items, viewRank i.state = some r) ∧ ∀ i ∈ items, ∀ a, viewRank i.state = some a → a ≤ r := by
  rw [highestRank_eq_max?, List.max?_eq_some_iff, mem_heldRanks]
  exact and_congr_right fun _ =>
    ⟨fun le i hi a ha => le a (mem_heldRanks.2 ⟨i, hi, ha⟩), fun le a ha => by
      obtain ⟨i, hi, held⟩ := mem_heldRanks.1 ha
      exact le i hi a held⟩

/-! ## The item summary (R170) -/

theorem itemSummary_eq_none_iff (items : List Item) :
    itemSummary items = none ↔ ∀ i ∈ items, i.state = .empty ∨ i.state = .retiring := by
  rw [itemSummary, Option.map_eq_none_iff, highestRank_eq_none_iff]

/-- A summary shows CRITICAL exactly where an item in the state it shows counts as CRITICAL. -/
theorem itemSummary_eq_some {items : List Item} {x : ItemSummary} (h : itemSummary items = some x) :
    ∃ r, highestRank items = some r ∧ x.state = rankState r ∧
      (x.severity = .critical ↔ ∃ i ∈ items, viewRank i.state = some r ∧ isCritical i = true) := by
  obtain ⟨r, highest, rfl⟩ := Option.map_eq_some_iff.1 h
  exact ⟨r, highest, rfl, by simp⟩

/-- The state shown is that of an item, a CRITICAL one where the summary shows CRITICAL. -/
theorem itemSummary_held {items : List Item} {x : ItemSummary} (h : itemSummary items = some x) :
    ∃ i ∈ items, i.state = x.state ∧ (x.severity = .critical → isCritical i = true) := by
  obtain ⟨r, highest, state, severity⟩ := itemSummary_eq_some h
  by_cases critical : x.severity = .critical
  · obtain ⟨i, hi, held, counts⟩ := severity.1 critical
    exact ⟨i, hi, by rw [state, rankState_of_viewRank held], fun _ => counts⟩
  · obtain ⟨⟨i, hi, held⟩, -⟩ := (highestRank_eq_some_iff items r).1 highest
    exact ⟨i, hi, by rw [state, rankState_of_viewRank held], fun shown => absurd shown critical⟩

/-- No item ranks above the state shown, and a CRITICAL one of the same rank makes the summary show CRITICAL. -/
theorem itemSummary_highest {items : List Item} {x : ItemSummary} (h : itemSummary items = some x) {i : Item}
    (hi : i ∈ items) {a b : Nat} (ha : viewRank i.state = some a) (hb : viewRank x.state = some b) :
    a ≤ b ∧ (a = b → isCritical i = true → x.severity = .critical) := by
  obtain ⟨r, highest, state, severity⟩ := itemSummary_eq_some h
  obtain ⟨⟨j, -, held⟩, above⟩ := (highestRank_eq_some_iff items r).1 highest
  obtain rfl : r = b := by
    rw [state, rankState_of_viewRank held, held] at hb
    exact Option.some.inj hb
  refine ⟨above i hi a ha, ?_⟩
  rintro rfl counts
  exact severity.2 ⟨i, hi, ha, counts⟩

/-- Settles O45: each expiry offers its frame to its port, and the view sent is `cabView`, formed as R170 gives. -/
theorem outputAndCabViewGoOut : Obligations.OutputAndCabViewGoOut := by
  refine ⟨fun s n h => ?_, fun s h => exec_outputPeriodExpiry_stopped h, fun s n h => ?_,
    fun s h => exec_cabViewExpiry_stopped h⟩
  · rw [exec_outputPeriodExpiry h, transferOutput, sendPeriodic, offerPeriodic_eq]
    rfl
  · refine ⟨cabView s, ?_, fun shown => ?_, fun hidden => ?_, rfl, rfl, rfl, rfl, rfl, rfl, rfl, rfl, rfl, rfl, rfl,
      itemSummary_eq_none_iff s.items, fun x hx => ⟨itemSummary_held hx, fun i hi a b => itemSummary_highest hx hi⟩⟩
    · rw [exec_cabViewExpiry h, sendCabView, cabView_elapse, sendPeriodic, offerPeriodic_eq]
      rfl
    · have shows := (poseShown_iff s.solver.pose).2 shown
      exact ⟨if_pos shows, if_pos shows, if_pos shows⟩
    · have hides := mt (poseShown_iff s.solver.pose).1 hidden
      exact ⟨if_neg hides, if_neg hides, if_neg hides⟩

end Sys2Proof.Proofs
end
